-- ==== Sys2Proof/Word.lean ====
section
/-! DEFINITION. The one word type that several parts share. Every quantity of the block is unsigned and bit 0 is
the least significant bit (rule R7); registers of other widths are written `BitVec n` where they stand. -/

namespace Sys2Proof

/-- Eight bits: an event byte (R46), an entry of the gamma ROM (R31), a perceptual duty (R60). -/
abbrev Byte := BitVec 8

end Sys2Proof
end

