-- ==== Sys2Proof/Machine/Table.lean ====
section
/-! DEFINITION. The contents of the gamma ROM (rules R31, R32, R61) and the reference table (R63). -/

namespace Sys2Proof

/-- No entry is larger than the next. -/
def nonDecreasing : List Byte → Bool
  | a :: b :: t => decide (a.toNat ≤ b.toNat) && nonDecreasing (b :: t)
  | _ => true

/-- The table's one form and the three properties of R61: 256 entries, G-mono, G-zero, G-full. -/
def gammaAdmissible (g : List Byte) : Bool :=
  decide (g.length = 256) && nonDecreasing g && decide (g.getD 0 1 = 0) && decide (g.getD 255 0 = 255)

/-- An admissible table, entry 0 first. A table without the properties of R61 is refused before reset (R149, R157), so
none can be written here. -/
structure GammaTable where
  entries : List Byte
  admissible : gammaAdmissible entries = true
deriving DecidableEq, Repr

/-- `GAMMA_REF` (R63), 16 entries a row, entry 0 first. Not the hardware's table: no source gives that (N1). -/
def gammaRef : List Byte :=
  [0, 0, 0, 0, 0, 0, 0, 0, 0, 0, 0, 0, 0, 0, 0, 0] ++
  [0, 0, 0, 0, 0, 0, 0, 0, 0, 0, 0, 0, 1, 1, 1, 1] ++
  [1, 1, 1, 1, 1, 1, 1, 1, 1, 2, 2, 2, 2, 2, 2, 2] ++
  [2, 3, 3, 3, 3, 3, 3, 3, 4, 4, 4, 4, 4, 5, 5, 5] ++
  [5, 6, 6, 6, 6, 7, 7, 7, 7, 8, 8, 8, 9, 9, 9, 10] ++
  [10, 10, 11, 11, 11, 12, 12, 13, 13, 13, 14, 14, 15, 15, 16, 16] ++
  [17, 17, 18, 18, 19, 19, 20, 20, 21, 21, 22, 22, 23, 24, 24, 25] ++
  [25, 26, 27, 27, 28, 29, 29, 30, 31, 32, 32, 33, 34, 35, 35, 36] ++
  [37, 38, 39, 39, 40, 41, 42, 43, 44, 45, 46, 47, 48, 49, 50, 50] ++
  [51, 52, 54, 55, 56, 57, 58, 59, 60, 61, 62, 63, 64, 66, 67, 68] ++
  [69, 70, 72, 73, 74, 75, 77, 78, 79, 81, 82, 83, 85, 86, 87, 89] ++
  [90, 92, 93, 95, 96, 98, 99, 101, 102, 104, 105, 107, 109, 110, 112, 114] ++
  [115, 117, 119, 120, 122, 124, 126, 127, 129, 131, 133, 135, 137, 138, 140, 142] ++
  [144, 146, 148, 150, 152, 154, 156, 158, 160, 162, 164, 167, 169, 171, 173, 175] ++
  [177, 180, 182, 184, 186, 189, 191, 193, 196, 198, 200, 203, 205, 208, 210, 213] ++
  [215, 218, 220, 223, 225, 228, 231, 233, 236, 239, 241, 244, 247, 249, 252, 255]

/-- The reference table has the three properties, as R63 says. -/
theorem gammaRef_admissible : gammaAdmissible gammaRef = true := by decide +kernel

/-- `GAMMA_REF` as a table. -/
def GammaTable.reference : GammaTable := { entries := gammaRef, admissible := gammaRef_admissible }

end Sys2Proof
end

