-- ==== Sys2Proof/Config.lean ====
section
/-! DEFINITION. What is fixed before reset and constant for the whole run (rules R2, R5, R47): the parameters of the
block. `Machine/Params.lean` says which of them are legal and what is derived from them. -/

namespace Sys2Proof

/-- `VARIANT` (R2): which of the two scheduler back-ends is built. -/
inductive Variant where
  | sw  -- the document's FadeScheduler, software-emulated PWM
  | hw  -- the document's CompareScheduler, hardware-assisted PWM
deriving DecidableEq, Repr

/-- Whether the timer unit of an `HW` build is part of the model (R47, R113). Without meaning in `SW`. -/
inductive Env where
  | closed  -- the only input is `CLK`; the timer unit raises `UPD`, `CC1`, `CC2`
  | opened  -- the inputs are `UPD`, `CC1`, `CC2`, in any order and number
deriving DecidableEq, Repr

/-- The parameters of R5, but for `INIT_OK`, which reset samples (R147), and `K`, which is derived (R66).
A width of a field is a width of the spec (decision D11), so a value beyond it cannot be written down here;
`Machine/Trace.lean` refuses such a value where a trace names it. -/
structure Config where
  /-- `VARIANT`. -/
  variant : Variant
  /-- The environment of an `HW` build. -/
  env : Env
  /-- `F`: cycle-counter increments per fade segment. -/
  fade : BitVec 32
  /-- `P`: timer-clock ticks per PWM period (`HW`). -/
  period : BitVec 16
  /-- `GAMMA`: the contents of the gamma ROM (R31, R32). -/
  gamma : GammaTable
deriving DecidableEq, Repr

/-- FREE VALUE (log 18): what `ROUND` of the numerator `n` over the denominator `fade` gives for an `n` outside `0..255*F`,
where R67 states no result. It has no body, so nothing is known of it. `ROUND` "reads and writes no state" (R67), so it
depends on its operands only. -/
opaque Config.freeRound (fade : BitVec 32) (n : Int) : Byte

end Sys2Proof
end

