-- ==== Sys2Proof/Machine/Params.lean ====
section
/-! DEFINITION. What follows from the parameters: the constants of rule R5, and which parameters are legal (R149, R157). -/

namespace Sys2Proof

/-- `F` as a number. -/
def Config.F (c : Config) : Nat := c.fade.toNat

/-- `P` as a number. -/
def Config.P (c : Config) : Nat := c.period.toNat

/-- `K`, the numerator of the per-period duty step over `F` (R5, R66): 65280 in `SW`, 255 in `HW` (decision D4). -/
def Config.stepNumerator (c : Config) : Nat :=
  match c.variant with
  | .sw => 65280
  | .hw => 255

/-- `255*F`, the numerator of the largest linear duty (R12). -/
def Config.accMax (c : Config) : Nat := 255 * c.F

/-- The entry of the gamma ROM at the 8-bit address `a` (R31): every address is backed by an entry. -/
def Config.gammaAt (c : Config) (a : Byte) : Byte := c.gamma.entries.getD a.toNat 0

/-- The configurations that reset accepts (R149, R157): `F` at least 1, in `HW` `P` at least 1. The upper limits of R149
are the widths of the fields, and a table is admissible by its type. -/
def Config.legal (c : Config) : Bool :=
  decide (1 ≤ c.F) && (decide (c.variant = .sw) || decide (1 ≤ c.P))

/-- The configuration of `State.reset` (log 2, DESIGN CHOICE): the source's example `F` of an `SW` build (R5), the
default environment (R55), the `P` of the spec's `HW` vectors, and the reference table. No rule depends on it. -/
def Config.reference : Config :=
  { variant := .sw, env := .closed, fade := 25000, period := 1000, gamma := .reference }

end Sys2Proof
end

