-- ==== Sys2Proof/Syntax.lean ====
section
/-! DEFINITION. The operations of the block (rules R45, R52): one constructor of `Instr` for each row of
spec/opcode_table.json; the words that encode them, one constructor of `Code` for each format (R46, R48, R49, R50);
and the output commands (R26). -/

namespace Sys2Proof

/-- A channel of the compare preload space (R35): channel 1 belongs to the active light, channel 2 to the previous. -/
inductive Channel where
  | one
  | two
deriving DecidableEq, Repr

/-- The operations of R52. The micro-operations take their operands from state and parameters, but for `LOOKUP`
and `ROUND`, whose operand is the value the caller passes (R51). -/
inductive Instr where
  | lookup (x : Byte)                         -- LOOKUP, R60
  | round (n : BitVec 40)                     -- ROUND, R67
  | stepDuty                                  -- STEP_DUTY, R66
  | duty                                      -- DUTY, R68
  | prevIndex                                 -- PREV_INDEX, R69
  | prevDuty                                  -- PREV_DUTY, R71
  | rotate                                    -- ROTATE, R73
  | tick                                      -- TICK, R81
  | upd                                       -- UPD, R96
  | cc1                                       -- CC1, R102
  | cc2                                       -- CC2, R103
  | clk                                       -- CLK, R108
  | ledOff (i : BitVec 3)                     -- LED_OFF, R34
  | ledOn (i : BitVec 3)                      -- LED_ON, R34
  | ccrWr (n : Channel) (v : BitVec 16)       -- CCR_WR, R36
deriving DecidableEq, Repr

/-- The four formats. Their code spaces are separate: the same bits mean different things in different formats. -/
inductive Format where
  | eb   -- event byte, 8 bits (R46)
  | lc   -- LED command, 4 bits (R48)
  | cw   -- compare write word, 17 bits (R49)
  | uop  -- micro-operation tag, 3 bits (R50)
deriving DecidableEq, Repr

/-- How many bits the caller passes beside a micro-operation tag (R51): 8 to `LOOKUP` (R60), 40 to `ROUND` (R67), none to
the others. -/
def operandWidth (tag : BitVec 3) : Nat :=
  match tag.toNat with
  | 0 => 8
  | 1 => 40
  | _ => 0

/-- An encoded operation. `arg` is what the caller passes to a micro-operation; it is no part of the tag (R50, R51), and
it has the width that the operation takes, so "an argument above 255 cannot be formed" for `LOOKUP` (R60). -/
inductive Code where
  | eb (b : Byte)
  | lc (w : BitVec 4)
  | cw (w : BitVec 17)
  | uop (tag : BitVec 3) (arg : BitVec (operandWidth tag))
deriving DecidableEq, Repr

/-- The format a word is in. -/
def Code.format : Code → Format
  | .eb _ => .eb
  | .lc _ => .lc
  | .cw _ => .cw
  | .uop _ _ => .uop

/-- The format of each operation, the column "format" of spec/opcode_table.json. -/
def Instr.format : Instr → Format
  | .lookup _ => .uop
  | .round _ => .uop
  | .stepDuty => .uop
  | .duty => .uop
  | .prevIndex => .uop
  | .prevDuty => .uop
  | .rotate => .uop
  | .tick => .eb
  | .upd => .eb
  | .cc1 => .eb
  | .cc2 => .eb
  | .clk => .eb
  | .ledOff _ => .lc
  | .ledOn _ => .lc
  | .ccrWr _ _ => .cw

/-- An entry of the output command log `OUT` (R26). -/
inductive Command where
  | led (i : BitVec 3) (b : Bool)             -- `Led(i, b)`, one `LedWrite`
  | ccr (n : Channel) (v : BitVec 16)         -- `Ccr(n, v)`, one `CcrWrite`
deriving DecidableEq, Repr

end Sys2Proof
end

