-- ==== Sys2Proof/Machine/State.lean ====
section
/-! DEFINITION. The complete state of the block (rule R10), its reset (R28, R145), and the names of the faults and
refusals. -/

namespace Sys2Proof.Machine

/-- Why a run is faulted. -/
inductive Fault where
  /-- `InitFailure` (R129, R147), raised by reset when `INIT_OK` is false. It sets `HALTED`, and `State.faultOf` reads
  it off the state; no step answers it, because the spec says what an event does in a halted state (nothing), so
  a step there answers the unchanged state. Safe: `Safety.lean` counts no halted state as a correct one (log 6). -/
  | initFailure
deriving DecidableEq, Repr

/-- Why the model gives an input no meaning (R131: an input that describes no situation of the hardware). -/
inductive Refusal where
  /-- An arm of `exec` that has no meaning yet; no arm is in this state. Safe. -/
  | notModelled (mnemonic : String)
  /-- Raised by `step` on an event byte 0x05 to 0xFF and on the micro-operation tag 111, and before reset by `startTrace`
  on such a byte: "reserved event code" (R53). Safe. -/
  | reservedEventCode
  /-- Raised by an event that the build and its environment do not have: "event foreign to the build" (R47, R53). Safe. -/
  | foreignEvent
  /-- Raised by `CCR_WR` in an `SW` build, which has no compare preload space (R10, R30). Safe. -/
  | absentFromBuild
  /-- Raised by every operation under an `F` or `P` outside R149 (R131, R157), and before reset by `startTrace` and
  `loadTrace`, there also for a number beyond its width and for a table without the properties of R61. Safe. -/
  | illegalParameter
  /-- Raised before reset by `loadTrace` and `loadText` on lines that are no trace of R55, or on a pseudo-instruction that R56 refuses. Safe. -/
  | malformedTrace
deriving DecidableEq, Repr

/-- The state. The registers are those of R10, under the spec's names; a register of the other build stays 0. -/
structure State where
  /-- The parameters of R5, fixed for the whole run. The model's field: the spec keeps no copy of them in state (R10, R27). -/
  cfg : Config
  /-- `IDX`, the ring index of the active light (R11). -/
  idx : BitVec 3
  /-- `ACC`, the numerator of the linear duty over `F` (R12). -/
  acc : BitVec 40
  /-- `SEG`, the cycle counter (R13). -/
  seg : BitVec 32
  /-- `TICKCNT`, the sub-tick position of the next tick, `SW` (R14). -/
  tickcnt : BitVec 8
  /-- `CNT`, the period counter, `HW` (R15). -/
  cnt : BitVec 16
  /-- `CCR1_PRE`, the preload register of channel 1, `HW` (R16). -/
  ccr1Pre : BitVec 16
  /-- `CCR2_PRE`. -/
  ccr2Pre : BitVec 16
  /-- `CCR1_ACT`, the active register of channel 1, `HW` (R16). -/
  ccr1Act : BitVec 16
  /-- `CCR2_ACT`. -/
  ccr2Act : BitVec 16
  /-- `LED`, the output register (R17). -/
  led : BitVec 8
  /-- `HALTED` (R19). -/
  halted : Bool
  /-- `PEND`, the pending events in the order CC2, CC1, UPD, TICK, bit 3 down to bit 0 (R21). -/
  pend : BitVec 4
  /-- `OUT`, every command issued since reset, in issue order (R26). -/
  out : List Command
  /-- The value that the last micro-operation performed on its own returned. The model's field: the spec gives
  such a value no register (R60, R65); nothing reads it. -/
  ret : Option Byte
  /-- The words the environment has yet to deliver, the next one first. The model's field: the block's input. -/
  input : List Code
deriving DecidableEq, Repr

/-- `RESET(INIT_OK)` (R28, R145, R147) of a block with the parameters `c`; nothing is queued at its input. -/
def State.resetOf (c : Config) (initOk : Bool) : State :=
  { cfg := c, idx := 0, acc := 0, seg := 0, tickcnt := 0, cnt := 0,
    ccr1Pre := 0, ccr2Pre := 0, ccr1Act := 0, ccr2Act := 0,
    led := 0, halted := !initOk, pend := 0, out := [], ret := none, input := [] }

/-- The machine after a reset with `INIT_OK`, with the parameters of log 2. Every other start is a `State.resetOf`. -/
def State.reset : State := State.resetOf Config.reference true

end Sys2Proof.Machine
end

