-- ==== Sys2Proof/Machine/Flags.lean ====
section
/-! DEFINITION. The only flag-like state of the block (rule R21): the pending events `PEND`, one bit per source. There
are no condition codes, and no operation writes a flag as a side effect. -/

namespace Sys2Proof.Machine

/-- The interrupt sources (R121). `CLK` is none: it is the timer's clock. -/
inductive Source where
  | tick
  | upd
  | cc1
  | cc2
deriving DecidableEq, Repr

/-- The `PEND` bit of a source (R121). -/
def pendBit : Source → BitVec 4
  | .tick => 1
  | .upd => 2
  | .cc1 => 4
  | .cc2 => 8

/-- A source raises its event (R123): its bit is set; a bit already set stays set. -/
def raiseEvent (e : Source) (s : State) : State := { s with pend := s.pend ||| pendBit e }

/-- A source raises its event when its condition holds. -/
def raiseWhen (b : Bool) (e : Source) (s : State) : State := if b then raiseEvent e s else s

/-- Whether a source's event is pending. -/
def isPending (e : Source) (s : State) : Bool := s.pend &&& pendBit e != 0

/-- The source that the dispatcher takes next (R124): none while `HALTED`; in `SW` bit 0; in `HW` the lowest set bit of
bits 1, 2, 3, so `UPD` before `CC1` before `CC2`. -/
def nextSource (s : State) : Option Source :=
  if s.halted then none
  else
    match s.cfg.variant with
    | .sw => if isPending .tick s then some .tick else none
    | .hw =>
      if isPending .upd s then some .upd
      else if isPending .cc1 s then some .cc1
      else if isPending .cc2 s then some .cc2
      else none

end Sys2Proof.Machine
end

