-- ==== Sys2Proof/Machine/Operands.lean ====
section
/-! DEFINITION. The operands that the operations take from state and parameters, none of them stored (rules R23, R51):
rounding, the two perceptual duties, the previous index, the compare thresholds. Every result is computed exactly and
then narrowed; the rules named show that the narrowing loses nothing. -/

namespace Sys2Proof.Machine

/-- `RomRead(a)` (R31): no side effect, never fails, every 8-bit address is backed. -/
def romRead (s : State) (a : Byte) : Byte := s.cfg.gammaAt a

/-- `ROUND(n)` (R67): half up, `(2n + F) div (2F)`, at most 255 for the operands that R67 gives it, `0..255*F`; a free
value for any other (log 18). -/
def roundLinear (s : State) (n : Int) : Byte :=
  if 0 ≤ n ∧ n ≤ s.cfg.accMax then BitVec.ofNat 8 ((2 * n.toNat + s.cfg.F) / (2 * s.cfg.F))
  else Config.freeRound s.cfg.fade n

/-- The numerator of the previous light's linear duty (R70), exact: below zero only where `ACC` is above `255*F`, which
no run reaches (log 14). -/
def prevNumerator (s : State) : Int := s.cfg.accMax - s.acc.toNat

/-- `DUTY()` (R68). -/
def dutyOf (s : State) : Byte := romRead s (roundLinear s s.acc.toNat)

/-- `PREV_DUTY()` (R71): the complement is taken before the table. -/
def prevDutyOf (s : State) : Byte := romRead s (roundLinear s (prevNumerator s))

/-- `PREV_INDEX()` (R69). -/
def prevIndexOf (s : State) : BitVec 3 := if s.idx = 0 then 7 else s.idx - 1

/-- A compare threshold (R98): the product first, then the floor of its 255th part; at most `P`. -/
def threshold (s : State) (d : Byte) : BitVec 16 := BitVec.ofNat 16 (d.toNat * s.cfg.P / 255)

/-- Whether the next `CLK` is a period boundary (R105): `CNT = P - 1`. -/
def atPeriodEnd (s : State) : Bool := decide (s.cnt = s.cfg.period - 1)

/-- Whether comparator 1 matches (R107). -/
def match1 (s : State) : Bool := decide (s.cnt = s.ccr1Act)

/-- Whether comparator 2 matches (R107). -/
def match2 (s : State) : Bool := decide (s.cnt = s.ccr2Act)

end Sys2Proof.Machine
end

