-- ==== Sys2Proof/Machine/Ops.lean ====
section
/-! DEFINITION. The named operations: the two command spaces (rules R34, R36), the fade state's updates (R66, R73, R86),
entering a handler and running all that is pending (R124, R126, R127), and what every operation performed from outside
goes through (R129, R131, R157). -/

namespace Sys2Proof.Machine

/-- `LedWrite(i, b)` (R34): bit `i` of `LED` becomes `b`, the others keep their value, and the command is logged, also
when the bit has that value already. -/
def ledWrite (i : BitVec 3) (b : Bool) (s : State) : State :=
  { s with
    led := if b then s.led ||| (1#8 <<< i.toNat) else s.led &&& ~~~(1#8 <<< i.toNat)
    out := s.out ++ [.led i b] }

/-- `CcrWrite(n, v)` (R36): the preload register of channel `n`, and the command is logged. The active registers keep
their value (R106). -/
def ccrWrite (n : Channel) (v : BitVec 16) (s : State) : State :=
  match n with
  | .one => { s with ccr1Pre := v, out := s.out ++ [.ccr .one v] }
  | .two => { s with ccr2Pre := v, out := s.out ++ [.ccr .two v] }

/-- `STEP_DUTY()` (R66): a saturating add, never a wrap. -/
def stepDuty (s : State) : State :=
  { s with acc := BitVec.ofNat 40 (min (s.acc.toNat + s.cfg.stepNumerator) s.cfg.accMax) }

/-- `ROTATE()` (R73). -/
def rotate (s : State) : State := { s with idx := s.idx + 1, acc := 0 }

/-- The cycle counter's step, S5 of R81 and U1 of R96: count, and at `F` rotate and start again (R86, R97). -/
def countSegment (s : State) : State :=
  let s1 := { s with seg := s.seg + 1 }
  if s1.seg = s1.cfg.fade then { rotate s1 with seg := 0 } else s1

/-- Entering the handler of a source (R126): its `PEND` bit is cleared; nothing is saved; the mask is up for the
handler only, which is one atomic transition, so it is no state. Leaving it (R127) restores nothing. -/
def enterHandler (e : Source) (s : State) : State := { s with pend := s.pend &&& ~~~(pendBit e) }

/-- The dispatcher (R124): as long as a source of the build is pending, enter its handler, run it to completion and look
again. Each round clears a bit and no handler sets one, so `fuel` 4 is enough for four sources. -/
def dispatchAll (handler : Source → State → State) : (fuel : Nat) → State → State
  | 0, s => s
  | fuel + 1, s =>
    match nextSource s with
    | none => s
    | some e => dispatchAll handler fuel (handler e (enterHandler e s))

/-- What every operation goes through: under illegal parameters it has no meaning (R131, R157), in a halted state
it changes nothing (R19, R129), and otherwise it has its effect. -/
def perform (effect : State → State) (s : State) : Host.Outcome State Fault Refusal :=
  if s.cfg.legal then (if s.halted then .next s else .next (effect s)) else .refused .illegalParameter

/-- The reception of an event (R47, R53): one that the build and its environment do not have is refused. -/
def receive (present : Bool) (effect : State → State) (s : State) : Host.Outcome State Fault Refusal :=
  if present then perform effect s else .refused .foreignEvent

/-- `VARIANT = SW`: `TICK` exists (R47). -/
def isSw (c : Config) : Bool := decide (c.variant = .sw)

/-- `VARIANT = HW`, open: `UPD`, `CC1`, `CC2` exist (R47, R113). -/
def isHwOpened (c : Config) : Bool := decide (c.variant = .hw) && decide (c.env = .opened)

/-- `VARIANT = HW`, closed: `CLK` exists (R47, R113). -/
def isHwClosed (c : Config) : Bool := decide (c.variant = .hw) && decide (c.env = .closed)

/-- The value a micro-operation performed on its own returns is recorded in the model's own field; the hardware's state
is unchanged (R60, R65). -/
def returning (v : State → Byte) (s : State) : State := { s with ret := some (v s) }

end Sys2Proof.Machine
end

