-- ==== Sys2Proof/Machine/Commands.lean ====
section
/-! DEFINITION. The three commands (rules R34, R36, R48, R49), performed on their own. -/

namespace Sys2Proof.Machine

/-- `LED_OFF i` (R34). -/
def execLedOff (i : BitVec 3) (s : State) : Host.Outcome State Fault Refusal := perform (ledWrite i false) s

/-- `LED_ON i` (R34). -/
def execLedOn (i : BitVec 3) (s : State) : Host.Outcome State Fault Refusal := perform (ledWrite i true) s

/-- `CCR_WR n v` (R36), for any 16-bit value; the compare preload space exists in `HW` only (R30). -/
def execCcrWr (n : Channel) (v : BitVec 16) (s : State) : Host.Outcome State Fault Refusal :=
  match s.cfg.variant with
  | .hw => perform (ccrWrite n v) s
  | .sw => .refused .absentFromBuild

end Sys2Proof.Machine
end

