-- ==== Sys2Proof/Machine/Handlers.lean ====
section
/-! DEFINITION. The four handlers, step by step with the labels of the spec (rules R81, R96, R102, R103), the table that
gives each source its handler (R121), and the arrival of one event (R123, R124). -/

namespace Sys2Proof.Machine

/-- S2b: the active light ON "if its gamma-corrected duty is non-zero" (R83). -/
def tickActiveOn (s : State) : State := if dutyOf s ≠ 0 then ledWrite s.idx true s else s

/-- S2c: the previous light ON "if its gamma-corrected duty is non-zero" (R83). -/
def tickPrevOn (s : State) : State := if prevDutyOf s ≠ 0 then ledWrite (prevIndexOf s) true s else s

/-- S2: at a period start (`t = 0`) the duty step, then the two ON commands (R83). -/
def tickPeriodStart (t : BitVec 8) (s : State) : State :=
  if t = 0 then tickPrevOn (tickActiveOn (stepDuty s)) else s

/-- S3: at the active light's threshold it goes OFF (R84). -/
def tickActiveOff (t : BitVec 8) (s : State) : State := if t = dutyOf s then ledWrite s.idx false s else s

/-- S4: at the previous light's threshold it goes OFF (R85). -/
def tickPrevOff (t : BitVec 8) (s : State) : State :=
  if t = prevDutyOf s then ledWrite (prevIndexOf s) false s else s

/-- S6: the tick counter, modulo 256 (R87). -/
def tickCount (s : State) : State := { s with tickcnt := s.tickcnt + 1 }

/-- The `TICK` handler, S1 to S6 (R81); `t` is `TICKCNT` at entry (R82). -/
def onTick (s : State) : State :=
  let t := s.tickcnt
  let s2 := tickPeriodStart t s
  let s3 := tickActiveOff t s2
  let s4 := tickPrevOff t s3
  let s5 := countSegment s4
  tickCount s5

/-- U2 and U3: both thresholds from the state after U1, then channel 1 before channel 2 (R98, R99). -/
def updThresholds (s : State) : State :=
  let c1 := threshold s (dutyOf s)
  let c2 := threshold s (prevDutyOf s)
  ccrWrite .two c2 (ccrWrite .one c1 s)

/-- U4: both lights ON, unconditionally, the active one first (R100). -/
def updLightsOn (s : State) : State :=
  let s1 := ledWrite s.idx true s
  ledWrite (prevIndexOf s1) true s1

/-- The `UPD` handler, U1 to U5 (R96). -/
def onUpd (s : State) : State :=
  let s1 := countSegment s
  let s3 := updThresholds s1
  let s4 := updLightsOn s3
  stepDuty s4

/-- The `CC1` handler (R102). -/
def onCc1 (s : State) : State := ledWrite s.idx false s

/-- The `CC2` handler (R103). -/
def onCc2 (s : State) : State := ledWrite (prevIndexOf s) false s

/-- The fixed association of source and handler (R121, R126). -/
def handlerOf : Source → State → State
  | .tick => onTick
  | .upd => onUpd
  | .cc1 => onCc1
  | .cc2 => onCc2

/-- Everything pending is handled, in the dispatcher's order (R124). -/
def runPending (s : State) : State := dispatchAll handlerOf 4 s

/-- One event arrives: its source raises it, and it is dispatched at once (R123, R125). -/
def arrive (e : Source) (s : State) : State := runPending (raiseEvent e s)

end Sys2Proof.Machine
end

