-- ==== Sys2Proof/Machine/HwEvents.lean ====
section
/-! DEFINITION. The events of the `HW` build and its timer unit (spec/43_compare_scheduler_hw.md). -/

namespace Sys2Proof.Machine

/-- `UPD` (R96), delivered by the open environment. -/
def execUpd (s : State) : Host.Outcome State Fault Refusal := receive (isHwOpened s.cfg) (arrive .upd) s

/-- `CC1` (R102), delivered by the open environment. -/
def execCc1 (s : State) : Host.Outcome State Fault Refusal := receive (isHwOpened s.cfg) (arrive .cc1) s

/-- `CC2` (R103), delivered by the open environment. -/
def execCc2 (s : State) : Host.Outcome State Fault Refusal := receive (isHwOpened s.cfg) (arrive .cc2) s

/-- T1: the counter advances; at a period boundary it returns to 0 and both preload registers become active (R105, R106). -/
def timerAdvance (s : State) : State :=
  if atPeriodEnd s then { s with cnt := 0, ccr1Act := s.ccr1Pre, ccr2Act := s.ccr2Pre }
  else { s with cnt := s.cnt + 1 }

/-- T2 and the raising of T3: `u` says that this tick is a boundary; the comparators look at the counter and the active
registers of after T1, before any handler runs (R107). -/
def timerRaise (u : Bool) (s : State) : State :=
  raiseWhen (match2 s) .cc2 (raiseWhen (match1 s) .cc1 (raiseWhen u .upd s))

/-- A whole `CLK`: the timer unit, then the handlers it raised (R108). -/
def clockTick (s : State) : State := runPending (timerRaise (atPeriodEnd s) (timerAdvance s))

/-- `CLK` (R108), delivered by the closed environment. -/
def execClk (s : State) : Host.Outcome State Fault Refusal := receive (isHwClosed s.cfg) clockTick s

end Sys2Proof.Machine
end

