-- ==== Sys2Proof/Machine/MicroOps.lean ====
section
/-! DEFINITION. The seven micro-operations (rules R60, R65 to R73), performed on their own. Inside a handler the same
operations of Operands.lean and Ops.lean are performed inline. -/

namespace Sys2Proof.Machine

/-- `LOOKUP(x)` (R60). -/
def execLookup (x : Byte) (s : State) : Host.Outcome State Fault Refusal :=
  perform (returning fun s => romRead s x) s

/-- `ROUND(n)` (R67), for every 40-bit numerator; above `255*F` what it returns is a free value (log 18). -/
def execRound (n : BitVec 40) (s : State) : Host.Outcome State Fault Refusal :=
  perform (returning fun s => roundLinear s n.toNat) s

/-- `STEP_DUTY()` (R66). -/
def execStepDuty (s : State) : Host.Outcome State Fault Refusal := perform stepDuty s

/-- `DUTY()` (R68). -/
def execDuty (s : State) : Host.Outcome State Fault Refusal := perform (returning dutyOf) s

/-- `PREV_INDEX()` (R69): 3 bits, recorded zero-extended. -/
def execPrevIndex (s : State) : Host.Outcome State Fault Refusal :=
  perform (returning fun s => (prevIndexOf s).setWidth 8) s

/-- `PREV_DUTY()` (R71). -/
def execPrevDuty (s : State) : Host.Outcome State Fault Refusal := perform (returning prevDutyOf) s

/-- `ROTATE()` (R73). -/
def execRotate (s : State) : Host.Outcome State Fault Refusal := perform rotate s

end Sys2Proof.Machine
end

