-- ==== Sys2Proof/Machine/SwEvents.lean ====
section
/-! DEFINITION. The event of the `SW` build (spec/42_fade_scheduler_sw.md). -/

namespace Sys2Proof.Machine

/-- `TICK` (R81): raised and handled, in an `SW` build. -/
def execTick (s : State) : Host.Outcome State Fault Refusal := receive (isSw s.cfg) (arrive .tick) s

end Sys2Proof.Machine
end

