-- ==== Sys2Proof/Machine/Dispatch.lean ====
section
/-! DEFINITION. One arm per operation of R52. -/

namespace Sys2Proof.Machine

def exec (i : Instr) (s : State) : Host.Outcome State Fault Refusal :=
  match i with
  | .lookup x => Sys2Proof.Machine.execLookup x s
  | .round n => Sys2Proof.Machine.execRound n s
  | .stepDuty => Sys2Proof.Machine.execStepDuty s
  | .duty => Sys2Proof.Machine.execDuty s
  | .prevIndex => Sys2Proof.Machine.execPrevIndex s
  | .prevDuty => Sys2Proof.Machine.execPrevDuty s
  | .rotate => Sys2Proof.Machine.execRotate s
  | .tick => Sys2Proof.Machine.execTick s
  | .upd => Sys2Proof.Machine.execUpd s
  | .cc1 => Sys2Proof.Machine.execCc1 s
  | .cc2 => Sys2Proof.Machine.execCc2 s
  | .clk => Sys2Proof.Machine.execClk s
  | .ledOff j => Sys2Proof.Machine.execLedOff j s
  | .ledOn j => Sys2Proof.Machine.execLedOn j s
  | .ccrWr n v => Sys2Proof.Machine.execCcrWr n v s

end Sys2Proof.Machine
end

