-- ==== Sys2Proof/Decode.lean ====
section
/-! DEFINITION. Decoding and encoding of the four formats of spec/30_encoding.md. The decoder is total and rejects
by name; the encoder is written from the same tables. -/

namespace Sys2Proof

/-- Why a word is no operation. -/
inductive DecodeError where
  | reservedEventCode      -- "reserved event code": an event byte 0x05 to 0xFF or the tag 111 (R46, R50, R53)
deriving DecidableEq, Repr

/-- Format `EB` (R46): the whole byte is compared. -/
def decodeEvent (b : Byte) : Except DecodeError Instr :=
  match b.toNat with
  | 0 => .ok .tick
  | 1 => .ok .upd
  | 2 => .ok .cc1
  | 3 => .ok .cc2
  | 4 => .ok .clk
  | _ => .error .reservedEventCode

/-- Format `LC` (R48): `LC[3:1]` is the index, `LC[0]` the level; all 16 values are legal. -/
def decodeLedCommand (w : BitVec 4) : Instr :=
  if w.getLsbD 0 then .ledOn (w.extractLsb' 1 3) else .ledOff (w.extractLsb' 1 3)

/-- Format `CW` (R49): `CW[16]` selects the channel, `CW[15:0]` is the value; no value is reserved. -/
def decodeCompareWrite (w : BitVec 17) : Instr :=
  .ccrWr (if w.getLsbD 16 then .two else .one) (w.extractLsb' 0 16)

/-- Format `UOP` (R50). `LOOKUP` and `ROUND` take the operand passed to them at its own width (R60, R67); with the other
tags nothing is passed (R51). -/
def decodeMicroOp (tag : BitVec 3) (arg : BitVec (operandWidth tag)) : Except DecodeError Instr :=
  match tag.toNat with
  | 0 => .ok (.lookup (arg.setWidth 8))
  | 1 => .ok (.round (arg.setWidth 40))
  | 2 => .ok .stepDuty
  | 3 => .ok .duty
  | 4 => .ok .prevIndex
  | 5 => .ok .prevDuty
  | 6 => .ok .rotate
  | _ => .error .reservedEventCode

/-- The decoder: each word in its own format. -/
def decode : Code → Except DecodeError Instr
  | .eb b => decodeEvent b
  | .lc w => .ok (decodeLedCommand w)
  | .cw w => .ok (decodeCompareWrite w)
  | .uop tag arg => decodeMicroOp tag arg

/-- The channel select bit of `CW` (R49). -/
def Channel.select : Channel → BitVec 1
  | .one => 0
  | .two => 1

/-- The encoder, from the tables of R46, R48, R49 and R50. -/
def encode : Instr → Code
  | .lookup x => .uop 0 x
  | .round n => .uop 1 n
  | .stepDuty => .uop 2 0
  | .duty => .uop 3 0
  | .prevIndex => .uop 4 0
  | .prevDuty => .uop 5 0
  | .rotate => .uop 6 0
  | .tick => .eb 0x00
  | .upd => .eb 0x01
  | .cc1 => .eb 0x02
  | .cc2 => .eb 0x03
  | .clk => .eb 0x04
  | .ledOff i => .lc (i ++ 0#1)
  | .ledOn i => .lc (i ++ 1#1)
  | .ccrWr n v => .cw (n.select ++ v)

/-- The operation that issues a command, so that `encode c.toInstr` is the command's binary form (R48, R49). -/
def Command.toInstr : Command → Instr
  | .led i true => .ledOn i
  | .led i false => .ledOff i
  | .ccr n v => .ccrWr n v

/-- The format that the length of a table word names: 8 bits `EB`, 4 (or the 1 bit that the table fixes) `LC`,
3 `UOP`, 17 or 17 filled up to whole bytes `CW`. Any other length, or a word too long for its format, is none.
In one byte only an event byte can stand (log 9): the formats share their bit patterns, and the event byte is the one
form that the block's input has. -/
def codeOfTableWord (nbits w : Nat) : Option Code :=
  if nbits = 8 then (if w < 256 then some (.eb (BitVec.ofNat 8 w)) else none)
  else if nbits = 3 then (if w < 8 then some (.uop (BitVec.ofNat 3 w) 0) else none)
  else if nbits = 1 ∨ nbits = 4 then (if w < 16 then some (.lc (BitVec.ofNat 4 w)) else none)
  else if 17 ≤ nbits ∧ nbits ≤ 32 then (if w < 131072 then some (.cw (BitVec.ofNat 17 w)) else none)
  else none

/-- What the decoder reads from a word of spec/opcode_table.json of `nbits` bits. A tag alone passes
the operand 0 (log 9). -/
def decodeTableWord (nbits w : Nat) : Option Instr :=
  match codeOfTableWord nbits w with
  | none => none
  | some c =>
    match decode c with
    | .ok i => some i
    | .error _ => none

end Sys2Proof
end

