-- ==== Sys2Proof/Machine/Fetch.lean ====
section
/-! DEFINITION. The input of the block: the next word of the environment, why a word is refused, and how one word is
placed so that the next step performs it. -/

namespace Sys2Proof.Machine

/-- The refusal that a step answers for a word that is no operation (R53). -/
def refusalOf : DecodeError → Refusal
  | .reservedEventCode => .reservedEventCode

/-- The next word at the input and the state in which it is performed, from which it has been taken. None: the
environment delivers nothing, and the block is idle (R120, R139). -/
def fetch (s : State) : Option (Code × State) :=
  match s.input with
  | [] => none
  | c :: rest => some (c, { s with input := rest })

/-- The build and environment in which an operation exists (R47, R30); the others exist in every build. -/
def buildFor (i : Instr) (c : Config) : Config :=
  match i with
  | .tick => { c with variant := .sw }
  | .upd => { c with variant := .hw, env := .opened }
  | .cc1 => { c with variant := .hw, env := .opened }
  | .cc2 => { c with variant := .hw, env := .opened }
  | .clk => { c with variant := .hw, env := .closed }
  | .ccrWr _ _ => { c with variant := .hw }
  | .lookup _ => c
  | .round _ => c
  | .stepDuty => c
  | .duty => c
  | .prevIndex => c
  | .prevDuty => c
  | .rotate => c
  | .ledOff _ => c
  | .ledOn _ => c

/-- The word placed first at the input, in a block of a build that has its operation (log 9). -/
def placeCode (c : Code) (s : State) : State :=
  let s1 := { s with input := c :: s.input }
  match decode c with
  | .ok i => { s1 with cfg := buildFor i s.cfg }
  | .error _ => s1

/-- A table word placed so; a word that no format has leaves the state as it is. -/
def placeTableWord (s : State) (nbits w : Nat) : State :=
  match codeOfTableWord nbits w with
  | some c => placeCode c s
  | none => s

end Sys2Proof.Machine
end

