-- ==== Sys2Proof/Machine/Step.lean ====
section
/-! DEFINITION. One step: the next word at the input is taken, decoded and performed, as one atomic transition (R125). -/

namespace Sys2Proof.Machine

/-- With nothing at its input the block idles (R120, R139); a word that is no operation is refused by name (R53). -/
def step (s : State) : Host.Outcome State Fault Refusal :=
  match fetch s with
  | none => .next s
  | some (c, s1) =>
    match decode c with
    | .ok i => exec i s1
    | .error e => .refused (refusalOf e)

/-- `s` with a table word placed where `step` takes its next word, in a build that has the operation: the block loads
no program, its input and its build are all that this takes. -/
def State.withFetchWord (s : State) (nbits w : Nat) : State := placeTableWord s nbits w

end Sys2Proof.Machine
end

