-- ==== Sys2Proof/Machine/Trace.lean ====
section
/-! DEFINITION. Traces (rules R55, R56): their lines, the configuration that the directives set, the events that the
pseudo-instructions stand for, and how a trace comes to run from reset, or is refused before it (R47, R53, R149, R157). -/

namespace Sys2Proof.Machine

/-- The event mnemonics of a trace (R55). -/
inductive Event where
  | tick
  | upd
  | cc1
  | cc2
  | clk
deriving DecidableEq, Repr

/-- What a directive sets (R55). Numbers are as written; their limits are checked where the configuration is made. -/
inductive Directive where
  | variant (v : Variant)
  | env (e : Env)
  | fade (n : Nat)
  | period (n : Nat)
  | gammaRef
  | gamma (entries : List Nat)
deriving DecidableEq, Repr

/-- An event line or a pseudo-instruction (R55, R56). -/
inductive Item where
  | event (e : Event)
  | rep (n : Nat) (e : Event)
  | period
  | segment
  | ring
deriving DecidableEq, Repr

/-- A line of a trace that is not blank (R55). -/
inductive Line where
  | directive (d : Directive)
  | reset (initOk : Bool)
  | item (i : Item)
deriving DecidableEq, Repr

/-- What the directives have set so far. -/
structure Settings where
  variant : Option Variant
  env : Env
  fade : Option Nat
  period : Option Nat
  gamma : Option (List Nat)
deriving DecidableEq, Repr

/-- The operation of an event. -/
def Event.toInstr : Event → Instr
  | .tick => .tick
  | .upd => .upd
  | .cc1 => .cc1
  | .cc2 => .cc2
  | .clk => .clk

/-- The event byte (R46). -/
def Event.byte : Event → Byte
  | .tick => 0x00
  | .upd => 0x01
  | .cc1 => 0x02
  | .cc2 => 0x03
  | .clk => 0x04

/-- Which events the build and its environment have (R47). What is no event, no trace can hold. -/
def eventPresent (c : Config) : Instr → Bool
  | .tick => isSw c
  | .upd => isHwOpened c
  | .cc1 => isHwOpened c
  | .cc2 => isHwOpened c
  | .clk => isHwClosed c
  | .lookup _ => false
  | .round _ => false
  | .stepDuty => false
  | .duty => false
  | .prevIndex => false
  | .prevDuty => false
  | .rotate => false
  | .ledOff _ => false
  | .ledOn _ => false
  | .ccrWr _ _ => false

/-- An event byte of a trace as the block's input takes it, or the reason to refuse the trace (R47, R53). -/
def admitByte (c : Config) (b : Byte) : Except Refusal Code :=
  match decodeEvent b with
  | .error e => .error (refusalOf e)
  | .ok i => if eventPresent c i then .ok (.eb b) else .error .foreignEvent

/-- All event bytes of a trace, or the first reason to refuse it. -/
def admitBytes (c : Config) : List Byte → Except Refusal (List Code)
  | [] => .ok []
  | b :: bs =>
    match admitByte c b with
    | .error r => .error r
    | .ok w =>
      match admitBytes c bs with
      | .error r => .error r
      | .ok ws => .ok (w :: ws)

/-- A run is a reset followed by a sequence of events (R161): illegal parameters are refused before reset (R149, R157),
and so is a trace with a reserved or a foreign event (R47, R53). -/
def startTrace (c : Config) (initOk : Bool) (bytes : List Byte) : Host.Outcome State Fault Refusal :=
  if c.legal then
    match admitBytes c bytes with
    | .error r => .refused r
    | .ok ws => .next { State.resetOf c initOk with input := ws }
  else .refused .illegalParameter

/-- `n` copies of an event (`REP`, R56). -/
def repeatEvent (n : Nat) (e : Event) : List Event := List.replicate n e

/-- `PERIOD` (R56): not defined in the open environment. -/
def periodEvents (c : Config) : Option (List Event) :=
  match c.variant, c.env with
  | .sw, _ => some (repeatEvent 256 .tick)
  | .hw, .closed => some (repeatEvent c.P .clk)
  | .hw, .opened => none

/-- `SEGMENT` (R56): not defined in the open environment. -/
def segmentEvents (c : Config) : Option (List Event) :=
  match c.variant, c.env with
  | .sw, _ => some (repeatEvent c.F .tick)
  | .hw, .closed => some (repeatEvent (c.F * c.P) .clk)
  | .hw, .opened => none

/-- `RING` (R56): eight times `SEGMENT`. -/
def ringEvents (c : Config) : Option (List Event) :=
  match segmentEvents c with
  | none => none
  | some es => some (List.flatten (List.replicate 8 es))

/-- The events of one line. -/
def itemEvents (c : Config) : Item → Option (List Event)
  | .event e => some [e]
  | .rep n e => some (repeatEvent n e)
  | .period => periodEvents c
  | .segment => segmentEvents c
  | .ring => ringEvents c

/-- The settings before the first directive; the environment's default is closed (R55). -/
def Settings.initial : Settings :=
  { variant := none, env := .closed, fade := none, period := none, gamma := none }

/-- One directive; a later one for the same parameter replaces an earlier (log 15). -/
def Settings.apply (s : Settings) : Directive → Settings
  | .variant v => { s with variant := some v }
  | .env e => { s with env := e }
  | .fade n => { s with fade := some n }
  | .period n => { s with period := some n }
  | .gammaRef => { s with gamma := some (gammaRef.map BitVec.toNat) }
  | .gamma es => { s with gamma := some es }

/-- A number within the width of a parameter (R149, R157). -/
def within (limit n : Nat) : Except Refusal Nat := if n ≤ limit then .ok n else .error .illegalParameter

/-- `P` is a parameter of `HW` only (R5, R55). -/
def Settings.periodFor (s : Settings) : Variant → Except Refusal Nat
  | .sw => .ok 0
  | .hw =>
    match s.period with
    | none => .error .malformedTrace
    | some n => within 65535 n

/-- The configuration that the directives name, its numbers within the widths of R149 and its table admissible; whether
`F` and `P` are legal is for `startTrace` to say. A trace that leaves a parameter of its build unset is malformed. -/
def Settings.toConfig (s : Settings) : Except Refusal Config :=
  match s.variant, s.fade, s.gamma with
  | some v, some f, some g =>
    match within 4294967295 f, s.periodFor v with
    | .error r, _ => .error r
    | .ok _, .error r => .error r
    | .ok f, .ok p =>
      if g.all (fun x => decide (x ≤ 255)) then
        if h : gammaAdmissible (g.map (BitVec.ofNat 8)) = true then
          .ok { variant := v, env := s.env, fade := BitVec.ofNat 32 f, period := BitVec.ofNat 16 p,
                gamma := { entries := g.map (BitVec.ofNat 8), admissible := h } }
        else .error .illegalParameter
      else .error .illegalParameter
  | _, _, _ => .error .malformedTrace

/-- The lines after the reset: events and pseudo-instructions only (R55). -/
def eventsOf (c : Config) : List Line → Option (List Event)
  | [] => some []
  | .item i :: rest =>
    match itemEvents c i, eventsOf c rest with
    | some es, some more => some (es ++ more)
    | none, _ => none
    | some _, none => none
  | .directive _ :: _ => none
  | .reset _ :: _ => none

/-- The lines from the first one, with what the directives have set: directives, then exactly one reset, then the
events (R55). -/
def loadFrom (s : Settings) : List Line → Host.Outcome State Fault Refusal
  | .directive d :: rest => loadFrom (s.apply d) rest
  | .reset initOk :: rest =>
    match s.toConfig with
    | .error r => .refused r
    | .ok c =>
      match eventsOf c rest with
      | none => .refused .malformedTrace
      | some es => startTrace c initOk (es.map Event.byte)
  | .item _ :: _ => .refused .malformedTrace
  | [] => .refused .malformedTrace

/-- The state from which a trace runs: reset, with the trace's events at the input. -/
def loadTrace (lines : List Line) : Host.Outcome State Fault Refusal := loadFrom Settings.initial lines

/-- A whole run: as many steps as there are events (R161). -/
def runTrace (lines : List Line) : Host.Outcome State Fault Refusal :=
  match loadTrace lines with
  | .next s => Host.Core.run Sys2Proof.core s.input.length s
  | .fault r => .fault r
  | .refused r => .refused r

end Sys2Proof.Machine
end

