-- ==== Sys2Proof/Machine/TraceText.lean ====
section
/-! DEFINITION. The text of a trace (rules R55, R56): one item a line, a number sign starts a comment, mnemonics are upper
case, numbers are decimal. -/

namespace Sys2Proof.Machine

/-- A finished word in front of the words after it. -/
def consWord (reversed : List Char) (rest : List (List Char)) : List (List Char) :=
  if reversed.isEmpty then rest else reversed.reverse :: rest

/-- The words between separators; `reversed` is the word being read. -/
def splitWords (separator : Char → Bool) (reversed : List Char) : List Char → List (List Char)
  | [] => consWord reversed []
  | c :: cs =>
    if separator c then consWord reversed (splitWords separator [] cs)
    else splitWords separator (c :: reversed) cs

/-- White space inside a line. -/
def isBlank (c : Char) : Bool := c == ' ' || c == '\t' || c == '\r'

/-- The table's entries are "separated by spaces or commas" (R55). -/
def isBlankOrComma (c : Char) : Bool := isBlank c || c == ','

/-- A line up to its comment. -/
def withoutComment (line : List Char) : List Char := line.takeWhile (fun c => c != '#')

/-- A decimal digit's value. -/
def digit? (c : Char) : Option Nat :=
  if decide (48 ≤ c.toNat) && decide (c.toNat ≤ 57) then some (c.toNat - 48) else none

/-- The number that digits spell after the value `acc`. -/
def decimalFrom (acc : Nat) : List Char → Option Nat
  | [] => some acc
  | c :: cs =>
    match digit? c with
    | none => none
    | some d => decimalFrom (10 * acc + d) cs

/-- A decimal of at least one digit. -/
def decimal? (w : List Char) : Option Nat := if w.isEmpty then none else decimalFrom 0 w

/-- Several decimals. -/
def decimals? : List (List Char) → Option (List Nat)
  | [] => some []
  | w :: ws =>
    match decimal? w, decimals? ws with
    | some n, some ns => some (n :: ns)
    | none, _ => none
    | some _, none => none

/-- A word is a given keyword. -/
def isWord (w : List Char) (keyword : String) : Bool := w == keyword.toList

/-- An event mnemonic. -/
def event? (w : List Char) : Option Event :=
  if isWord w "TICK" then some .tick
  else if isWord w "UPD" then some .upd
  else if isWord w "CC1" then some .cc1
  else if isWord w "CC2" then some .cc2
  else if isWord w "CLK" then some .clk
  else none

/-- A line of one word. -/
def oneWord? (w : List Char) : Option Line :=
  if isWord w "PERIOD" then some (.item .period)
  else if isWord w "SEGMENT" then some (.item .segment)
  else if isWord w "RING" then some (.item .ring)
  else (event? w).map fun e => .item (.event e)

/-- A line of two words: a directive or the reset. -/
def twoWords? (w x : List Char) : Option Line :=
  if isWord w ".variant" then
    if isWord x "SW" then some (.directive (.variant .sw))
    else if isWord x "HW" then some (.directive (.variant .hw))
    else none
  else if isWord w ".env" then
    if isWord x "open" then some (.directive (.env .opened))
    else if isWord x "closed" then some (.directive (.env .closed))
    else none
  else if isWord w ".reset" then
    if isWord x "ok" then some (.reset true)
    else if isWord x "fail" then some (.reset false)
    else none
  else if isWord w ".F" then (decimal? x).map fun n => .directive (.fade n)
  else if isWord w ".P" then (decimal? x).map fun n => .directive (.period n)
  else none

/-- `REP n <event>` (R56). -/
def threeWords? (w x y : List Char) : Option Line :=
  if isWord w "REP" then
    match decimal? x, event? y with
    | some n, some e => some (.item (.rep n e))
    | none, _ => none
    | some _, none => none
  else none

/-- The argument of `.gamma` (R55). -/
def gammaLine? (entries : List (List Char)) : Option Line :=
  if entries = ["ref".toList] then some (.directive .gammaRef)
  else (decimals? entries).map fun ns => .directive (.gamma ns)

/-- A line by its words; `none` is no line of R55 or R56. -/
def plainLine? : List (List Char) → Option Line
  | [w] => oneWord? w
  | [w, x] => twoWords? w x
  | [w, x, y] => threeWords? w x y
  | _ => none

/-- A line without its comment that is not blank: in a `.gamma` line commas separate too. -/
def line? (text : List Char) : Option Line :=
  match splitWords isBlankOrComma [] text with
  | w :: entries => if isWord w ".gamma" then gammaLine? entries else plainLine? (splitWords isBlank [] text)
  | [] => none

/-- The lines of a text; a blank line or a line of comment only is no item. -/
def linesOf : List (List Char) → Option (List Line)
  | [] => some []
  | l :: ls =>
    if (splitWords isBlank [] (withoutComment l)).isEmpty then linesOf ls
    else
      match line? (withoutComment l), linesOf ls with
      | some x, some xs => some (x :: xs)
      | none, _ => none
      | some _, none => none

/-- The lines of a trace file. -/
def parseTrace (text : List Char) : Option (List Line) := linesOf (splitWords (fun c => c == '\n') [] text)

/-- The state from which a trace file runs, or the reason to refuse it. -/
def loadText (text : List Char) : Host.Outcome State Fault Refusal :=
  match parseTrace text with
  | some lines => loadTrace lines
  | none => .refused .malformedTrace

end Sys2Proof.Machine
end

