-- ==== Sys2Proof/WellFormed.lean ====
section
/-! DEFINITION. Which operations the block itself ever performs, by their operands: a numerator within the linear
range (R67) and a threshold within the period (R36). The widths of all other operands make them legal (R38). -/

namespace Sys2Proof

/-- `ROUND` takes a numerator of at most `255*F` (R67); `CcrWrite` is "always with `0 <= v <= P`" (R36) and exists in
`HW` only (R30). -/
def Instr.wellFormed (c : Config) : Instr → Bool
  | .lookup _ => true
  | .round n => decide (n.toNat ≤ 255 * c.fade.toNat)
  | .stepDuty => true
  | .duty => true
  | .prevIndex => true
  | .prevDuty => true
  | .rotate => true
  | .tick => true
  | .upd => true
  | .cc1 => true
  | .cc2 => true
  | .clk => true
  | .ledOff _ => true
  | .ledOn _ => true
  | .ccrWr _ v => decide (c.variant = .hw) && decide (v.toNat ≤ c.period.toNat)

end Sys2Proof
end

