-- ==== Sys2Proof/Safety.lean ====
section
/-! DEFINITION. The terms in which claims speak: when a run is faulted (rule R129), what the commands of `OUT` do to `LED`
(R41), the invariant of the machine (R21, R24, R28, R129), and runs of several operations (R161). -/

namespace Sys2Proof.Machine

/-- The fault of a state (R129): a halted run is never in a state that a claim may call correct. -/
def State.faultOf (s : State) : Option Fault := if s.halted then some .initFailure else none

/-- A state that a claim may call correct. -/
def State.safe (s : State) : Bool := decide (s.faultOf = none)

/-- `LED` after one command: a compare write leaves it alone (R34, R36). -/
def applyCommand (led : BitVec 8) : Command → BitVec 8
  | .led i true => led ||| (1#8 <<< i.toNat)
  | .led i false => led &&& ~~~(1#8 <<< i.toNat)
  | .ccr _ _ => led

/-- `LED` after commands in order (R41). -/
def applyCommands (led : BitVec 8) (cs : List Command) : BitVec 8 := cs.foldl applyCommand led

/-- A command that the block ever issues: "always with `0 <= v <= P`", and no compare write in `SW` (R30, R36). -/
def commandAdmissible (c : Config) (k : Command) : Bool := k.toInstr.wellFormed c

/-- The parameters are legal and the block is not halted: the conditions of every handler ("`HALTED = 0`"). -/
structure State.Ready (s : State) : Prop where
  legal : s.cfg.legal = true
  running : s.halted = false

/-- What holds at reset and after every step. -/
structure State.Inv (s : State) : Prop where
  /-- Reset refuses illegal parameters (R149), and nothing changes them. -/
  legal : s.cfg.legal = true
  /-- `0 <= ACC <= 255*F` (R12, R24). -/
  accLe : s.acc.toNat ≤ 255 * s.cfg.F
  /-- `0 <= SEG <= F - 1` between handlers (R13). -/
  segLt : s.seg.toNat < s.cfg.F
  /-- `PEND` is 0 between events (R21). -/
  pendZero : s.pend = 0
  /-- `CNT` is in `0..P-1`, the compare registers are in `0..P` (R15, R16). -/
  timerRange : s.cfg.variant = .hw →
    s.cnt.toNat < s.cfg.P ∧ s.ccr1Pre.toNat ≤ s.cfg.P ∧ s.ccr2Pre.toNat ≤ s.cfg.P ∧
      s.ccr1Act.toNat ≤ s.cfg.P ∧ s.ccr2Act.toNat ≤ s.cfg.P
  /-- The registers of `HW` do not exist in `SW` (R10): they keep 0. -/
  absentInSw : s.cfg.variant = .sw →
    s.cnt = 0 ∧ s.ccr1Pre = 0 ∧ s.ccr2Pre = 0 ∧ s.ccr1Act = 0 ∧ s.ccr2Act = 0
  /-- `TICKCNT` does not exist in `HW` (R10). -/
  absentInHw : s.cfg.variant = .hw → s.tickcnt = 0
  /-- In the open environment `CNT` and the active registers are not modelled (R113). -/
  absentInOpened : s.cfg.variant = .hw → s.cfg.env = .opened → s.cnt = 0 ∧ s.ccr1Act = 0 ∧ s.ccr2Act = 0
  /-- `LED` is the result of applying `OUT` in order to the reset value (R41). -/
  ledReplay : s.led = applyCommands 0 s.out
  /-- No command outside the space or the range (R30, R36). -/
  outAdmissible : ∀ k ∈ s.out, commandAdmissible s.cfg k = true
  /-- While halted every register keeps its reset value (R129, R147). -/
  haltedReset : s.halted = true → s = { State.resetOf s.cfg false with input := s.input }
  /-- What waits at the input has operands that the block itself would use (`Instr.wellFormed`). -/
  inputWellFormed : ∀ c ∈ s.input, ∀ i, decode c = .ok i → i.wellFormed s.cfg = true

/-- Operations performed one after the other, stopping at the first that gives no next state. -/
def execAll : List Instr → State → Host.Outcome State Fault Refusal
  | [], s => .next s
  | i :: is, s =>
    match exec i s with
    | .next t => execAll is t
    | .fault r => .fault r
    | .refused r => .refused r

end Sys2Proof.Machine
end

