-- ==== Sys2Proof/Certificates/Slice0/Obligations.lean ====
section
/-! DEFINITION. The statements for the provers. Each docstring names the rules of spec/ that the statement formalises or
rests on, and what in it is the model's choice. -/

open Sys2Proof Sys2Proof.Machine

namespace Sys2Proof.Claims

/-- The perceptual duty of the linear duty `n / F`: the table at `round(n / F)`, half up (R67, R68, R71). Outside
`0..255*F`, where R67 states no result, the rounded number is the free value of log 18. -/
def dutyAt (c : Config) (n : Int) : Byte :=
  c.gammaAt
    (if 0 ≤ n ∧ n ≤ 255 * c.F then BitVec.ofNat 8 ((2 * n.toNat + c.F) / (2 * c.F)) else Config.freeRound c.fade n)

/-- `(i + 7) mod 8` (R69). -/
def prevOf (i : BitVec 3) : BitVec 3 := BitVec.ofNat 3 ((i.toNat + 7) % 8)

/-- `(i + 1) mod 8` (R73). -/
def succOf (i : BitVec 3) : BitVec 3 := BitVec.ofNat 3 ((i.toNat + 1) % 8)

/-- A command when a condition holds. -/
def issueIf (p : Prop) [Decidable p] (k : Command) : List Command := if p then [k] else []

end Sys2Proof.Claims

open Sys2Proof.Claims

/-! ### Words, formats, traces -/

/-- R120, R125, R139: the next word at the input, decoded, is performed in the state from which it has been taken; with
nothing at the input the block idles. That the input is a queue in the state is the model's choice (log 3). -/
def Obligations.StepPerformsNextWord : Prop :=
  (∀ (s : State) (c : Code) (rest : List Code) (i : Instr),
    s.input = c :: rest → decode c = .ok i → step s = exec i { s with input := rest }) ∧
  (∀ s : State, s.input = [] → step s = .next s)

/-- R53: the event bytes 0x05 to 0xFF and the tag 111 are refused as "reserved event code", whatever follows them. -/
def Obligations.ReservedCodesRefused : Prop :=
  (∀ (s : State) (b : Byte) (rest : List Code), 5 ≤ b.toNat → s.input = .eb b :: rest →
    step s = .refused .reservedEventCode) ∧
  (∀ (s : State) (arg : BitVec (operandWidth 7)) (rest : List Code), s.input = .uop 7 arg :: rest →
    step s = .refused .reservedEventCode)

/-- R46, R48, R49, R50: words written out from the tables and examples of spec/30_encoding.md. -/
def Obligations.TableWordsDecode : Prop :=
  [decode (.eb 0b00000000), decode (.eb 0b00000001), decode (.eb 0b00000010), decode (.eb 0b00000011),
    decode (.eb 0b00000100)] = [.ok .tick, .ok .upd, .ok .cc1, .ok .cc2, .ok .clk] ∧
  [decode (.lc 0b1111), decode (.lc 0b0000), decode (.lc 0b0001)] =
    [.ok (.ledOn 7), .ok (.ledOff 0), .ok (.ledOn 0)] ∧
  [decode (.cw 0x103E8), decode (.cw 0x00000)] = [.ok (.ccrWr .two 1000), .ok (.ccrWr .one 0)] ∧
  [decode (.uop 0b010 0), decode (.uop 0b110 0), decode (.uop 0b001 12500), decode (.uop 0b000 128)] =
    [.ok .stepDuty, .ok .rotate, .ok (.round 12500), .ok (.lookup 128)]

/-- R45 to R50: no bit of an encoding is dropped, for every operation and every operand. -/
def Obligations.DecodeOfEncode : Prop :=
  ∀ i : Instr, decode (encode i) = .ok i ∧ (encode i).format = i.format

/-- R45 to R53: in each format a word has at most one meaning, and what decodes is what the encoder writes. -/
def Obligations.EncodeOfDecode : Prop :=
  ∀ (c : Code) (i : Instr), decode c = .ok i → encode i = c

/-- R47: an event that the build and its environment do not have is refused as foreign, in every state. -/
def Obligations.ForeignEventsRefused : Prop :=
  ∀ s : State,
    (s.cfg.variant = .sw → ∀ i ∈ [Instr.upd, .cc1, .cc2, .clk], exec i s = .refused .foreignEvent) ∧
    (s.cfg.variant = .hw → s.cfg.env = .closed →
      ∀ i ∈ [Instr.tick, .upd, .cc1, .cc2], exec i s = .refused .foreignEvent) ∧
    (s.cfg.variant = .hw → s.cfg.env = .opened → ∀ i ∈ [Instr.tick, .clk], exec i s = .refused .foreignEvent)

/-- R47, R128, R129: every event that the build and its environment have completes, in every state with legal parameters.
That an event in a halted block answers a next state (the unchanged one) and not a fault is the model's reading of R19
and R129 (log 6, DEDUCED). -/
def Obligations.PresentEventsComplete : Prop :=
  ∀ (s : State) (i : Instr), s.cfg.legal = true → eventPresent s.cfg i = true → ∃ t, exec i s = .next t

/-- R47, R53, R149, R157, R161: the traces that are not refused are those of legal parameters whose bytes are all events
of the build and environment, and their run starts in the reset state with these events at the input. -/
def Obligations.TracesThatStart : Prop :=
  ∀ (c : Config) (ok : Bool) (bytes : List Byte) (s : State),
    startTrace c ok bytes = .next s ↔
      c.legal = true ∧ (∀ b ∈ bytes, ∃ i, decode (.eb b) = .ok i ∧ eventPresent c i = true) ∧
        s = { State.resetOf c ok with input := bytes.map .eb }

/-- R56: `PERIOD`, `SEGMENT` and `RING` by build and environment. -/
def Obligations.PseudoInstructionsExpand : Prop :=
  (∀ c : Config, c.variant = .sw →
    itemEvents c .period = some (List.replicate 256 .tick) ∧
    itemEvents c .segment = some (List.replicate c.F .tick) ∧
    itemEvents c .ring = some (List.replicate (8 * c.F) .tick)) ∧
  (∀ c : Config, c.variant = .hw → c.env = .closed →
    itemEvents c .period = some (List.replicate c.P .clk) ∧
    itemEvents c .segment = some (List.replicate (c.F * c.P) .clk) ∧
    itemEvents c .ring = some (List.replicate (8 * (c.F * c.P)) .clk)) ∧
  (∀ c : Config, c.variant = .hw → c.env = .opened →
    itemEvents c .period = none ∧ itemEvents c .segment = none ∧ itemEvents c .ring = none)

/-! ### Parameters, reset, halt -/

/-- R61, R149, R157: which parameters the model accepts; no admissible table is shut out and no other let in. -/
def Obligations.LegalParametersExactly : Prop :=
  (∀ g : List Byte, gammaAdmissible g = true ↔
    g.length = 256 ∧
      (∀ i j : Nat, i ≤ j → j ≤ 255 → (g.getD i 0).toNat ≤ (g.getD j 0).toNat) ∧
      g[0]? = some 0 ∧ g[255]? = some 255) ∧
  (∀ c : Config, c.legal = true ↔
    (1 ≤ c.F ∧ c.F ≤ 2 ^ 32 - 1) ∧ (c.variant = .hw → 1 ≤ c.P ∧ c.P ≤ 65535))

/-- R131, R157: under parameters outside R149 no operation has a meaning. The spec refuses such parameters before reset;
that every operation refuses them, in any state that holds them, is the model's choice (log 7, DESIGN CHOICE). -/
def Obligations.IllegalParametersStop : Prop :=
  ∀ (i : Instr) (s t : State), s.cfg.legal = false → exec i s ≠ .next t

/-- R32: no operation writes the table, no event changes it, reset does not change it. R2, R5, R145: nor any other
parameter, which is "constant for the whole run"; that the parameters stand in a field of the state is log 1. -/
def Obligations.TableIsImmutable : Prop :=
  (∀ (i : Instr) (s t : State), exec i s = .next t → t.cfg = s.cfg ∧ ∀ a, romRead t a = romRead s a) ∧
  (∀ s t : State, step s = .next t → t.cfg = s.cfg ∧ ∀ a, romRead t a = romRead s a) ∧
  (∀ (c : Config) (ok : Bool), (State.resetOf c ok).cfg = c ∧ ∀ a, romRead (State.resetOf c ok) a = c.gammaAt a)

/-- R28, R145, R147: every register after reset; the spec itself marks all but `IDX` and `ACC` as its own choice (D13).
`State.reset` is the reset of the configuration of log 2. -/
def Obligations.ResetRegisters : Prop :=
  (∀ (c : Config) (ok : Bool),
    let s := State.resetOf c ok
    s.idx = 0 ∧ s.acc = 0 ∧ s.seg = 0 ∧ s.tickcnt = 0 ∧ s.cnt = 0 ∧ s.ccr1Pre = 0 ∧ s.ccr2Pre = 0 ∧
      s.ccr1Act = 0 ∧ s.ccr2Act = 0 ∧ s.led = 0b00000000 ∧ s.pend = 0 ∧ s.out = [] ∧ s.halted = !ok ∧ s.cfg = c) ∧
  State.reset = State.resetOf Config.reference true

/-- R28 with the invariants of R21, R24, R41, R129: they hold after every reset that R149 allows. -/
def Obligations.ResetMeetsInvariant : Prop :=
  (∀ (c : Config) (ok : Bool), c.legal = true → (State.resetOf c ok).Inv) ∧ State.reset.Inv

/-- R13, R15, R16, R21, R24, R41, R129: every step keeps the invariant, from every state that meets it. -/
def Obligations.StepKeepsInvariant : Prop :=
  ∀ s t : State, s.Inv → step s = .next t → t.Inv

/-- R19, R129: in a halted block no register changes, whatever is performed, and the event of the build completes. -/
def Obligations.HaltedBlockIsFrozen : Prop :=
  (∀ (i : Instr) (s t : State), s.halted = true → exec i s = .next t → t = s) ∧
  (∀ s : State, s.halted = true → s.cfg.legal = true →
    (s.cfg.variant = .sw → exec .tick s = .next s) ∧
    (s.cfg.variant = .hw → s.cfg.env = .closed → exec .clk s = .next s))

/-- R19, R129: `HALTED` is written at reset only, to `not INIT_OK`, so a run is faulted exactly if it started so. -/
def Obligations.HaltedWrittenAtResetOnly : Prop :=
  (∀ (i : Instr) (s t : State), exec i s = .next t → t.halted = s.halted ∧ t.faultOf = s.faultOf) ∧
  (∀ c : Config, (State.resetOf c false).faultOf = some .initFailure ∧ (State.resetOf c true).faultOf = none)

/-- R128: no operation and no step faults, and a signal write always succeeds. R128 speaks of the steady state; that no
step of a halted block answers `InitFailure` either is the model's reading of R129 (log 6, DEDUCED). -/
def Obligations.NothingFaults : Prop :=
  (∀ (i : Instr) (s : State) (r : Fault), exec i s ≠ .fault r) ∧
  (∀ (s : State) (r : Fault), step s ≠ .fault r) ∧
  (∀ (s : State) (i : BitVec 3), s.Ready → (∃ t, exec (.ledOn i) s = .next t) ∧ ∃ t, exec (.ledOff i) s = .next t)

/-! ### Micro-operations -/

/-- R60: `LOOKUP` gives the entry and writes nothing; what it gives is recorded in the model's field `ret` (log 5). The
corner cases hold for every legal table, the worked example for `GAMMA_REF`. -/
def Obligations.LookupGivesEntry : Prop :=
  (∀ (s : State) (x : Byte), s.Ready → exec (.lookup x) s = .next { s with ret := some (s.cfg.gammaAt x) }) ∧
  (∀ c : Config, c.gammaAt 0 = 0 ∧ c.gammaAt 255 = 255) ∧
  (∀ c : Config, c.gamma = .reference → c.gammaAt 128 = 37)

/-- R67: `ROUND` gives the `r` with `r <= n/F + 1/2 < r + 1` (half up, decision D5) and writes nothing, for every operand
that R67 gives it. The record in `ret` (log 5) is the model's choice, and so is that it also completes, with a free
value and writing nothing else, for a numerator above `255*F`, where R67 states no result (log 18). -/
def Obligations.RoundGivesNearest : Prop :=
  ∀ (s : State) (n : BitVec 40), s.Ready →
    (n.toNat ≤ 255 * s.cfg.F →
      ∃ r : Byte, exec (.round n) s = .next { s with ret := some r } ∧
        2 * s.cfg.F * r.toNat ≤ 2 * n.toNat + s.cfg.F ∧ 2 * n.toNat + s.cfg.F < 2 * s.cfg.F * (r.toNat + 1)) ∧
    (255 * s.cfg.F < n.toNat → ∃ r : Byte, exec (.round n) s = .next { s with ret := some r })

/-- R67: the rounded duties of the two lights add up to 255, or to 256 exactly at a tie. -/
def Obligations.RoundedDutiesAddUp : Prop :=
  ∀ (s : State) (n : Nat), 1 ≤ s.cfg.F → n ≤ 255 * s.cfg.F →
    (roundLinear s n).toNat + (roundLinear s (255 * s.cfg.F - n)).toNat =
      if (2 * n + s.cfg.F) % (2 * s.cfg.F) = 0 then 256 else 255

/-- R66 (decisions D3, D4): a saturating add of 65280 or 255 to `ACC` alone, never down when `ACC` is in its range. -/
def Obligations.StepDutySaturates : Prop :=
  ∀ s : State, s.Ready →
    ∃ t, exec .stepDuty s = .next t ∧ t = { s with acc := t.acc } ∧
      t.acc.toNat = min (s.acc.toNat + (if s.cfg.variant = .sw then 65280 else 255)) (255 * s.cfg.F) ∧
      (s.acc.toNat ≤ 255 * s.cfg.F → s.acc.toNat ≤ t.acc.toNat)

/-- R68, R71: the two perceptual duties, and their corner cases; nothing is written. The record in `ret` is the model's
(log 5); the rounding is decision D5; where `ACC` is above its range, `dutyAt` is a free value's entry (log 18). -/
def Obligations.DutiesGiveTableValues : Prop :=
  ∀ s : State, s.Ready →
    exec .duty s = .next { s with ret := some (dutyAt s.cfg s.acc.toNat) } ∧
    exec .prevDuty s = .next { s with ret := some (dutyAt s.cfg (255 * s.cfg.F - s.acc.toNat)) } ∧
    (s.acc = 0 → dutyAt s.cfg s.acc.toNat = 0 ∧ dutyAt s.cfg (255 * s.cfg.F - s.acc.toNat) = 255) ∧
    (s.acc.toNat = 255 * s.cfg.F →
      dutyAt s.cfg s.acc.toNat = 255 ∧ dutyAt s.cfg (255 * s.cfg.F - s.acc.toNat) = 0)

/-- R64 (c): with every `STEP_DUTY` the active light's perceptual duty does not fall and the previous light's does not
rise, for every legal table. -/
def Obligations.DutiesAreMonotone : Prop :=
  ∀ s : State, s.cfg.legal = true → s.acc.toNat ≤ 255 * s.cfg.F →
    (dutyOf s).toNat ≤ (dutyOf (stepDuty s)).toNat ∧ (prevDutyOf (stepDuty s)).toNat ≤ (prevDutyOf s).toNat

/-- R69: both expressions of the source, for every index, and never the index itself. -/
def Obligations.PrevIndexTwoForms : Prop :=
  encode .prevIndex = .uop 0b100 0 ∧
  ∀ s : State, prevIndexOf s = prevOf s.idx ∧
    prevIndexOf s = (if s.idx = 0 then 7 else BitVec.ofNat 3 (s.idx.toNat - 1)) ∧ prevIndexOf s ≠ s.idx

/-- R69: `PREV_INDEX` writes nothing; what it gives is recorded in the model's field `ret` (log 5). -/
def Obligations.PrevIndexIsGiven : Prop :=
  ∀ s : State, s.Ready →
    exec .prevIndex s = .next { s with ret := some (BitVec.ofNat 8 ((s.idx.toNat + 7) % 8)) }

/-- R70: the previous light's linear duty is the exact complement, and not below zero. -/
def Obligations.DutiesAreComplementary : Prop :=
  ∀ s : State, (s.acc.toNat : Int) + prevNumerator s = 255 * s.cfg.F ∧
    (s.acc.toNat ≤ 255 * s.cfg.F → 0 ≤ prevNumerator s ∧ prevNumerator s ≤ 255 * s.cfg.F)

/-- R73: `ROTATE` advances the index by 1 modulo 8, resets the duty, writes nothing else; the old active light is the
new previous light with linear duty 255. -/
def Obligations.RotateAdvancesRing : Prop :=
  encode .rotate = .uop 0b110 0 ∧
  ∀ s : State, s.Ready →
    ∃ t, exec .rotate s = .next t ∧ t = { s with idx := succOf s.idx, acc := 0 } ∧
      prevIndexOf t = s.idx ∧ prevNumerator t = 255 * t.cfg.F

/-! ### Commands -/

/-- R34: one bit of `LED`, one entry of `OUT`, nothing else, also when the bit has the value already. -/
def Obligations.LedWriteSetsOneBit : Prop :=
  ∀ (s : State) (i : BitVec 3) (b : Bool), s.Ready →
    ∃ t, exec (if b then .ledOn i else .ledOff i) s = .next t ∧
      t = { s with led := t.led, out := s.out ++ [.led i b] } ∧
      t.led.getLsbD i.toNat = b ∧
      ∀ j : BitVec 3, j ≠ i → t.led.getLsbD j.toNat = s.led.getLsbD j.toNat

/-- R35, R36: in `HW` a compare write sets one preload register and is logged; the active registers keep their values.
That `SW`, which has no such space (R30), refuses it is the model's choice (log 12). -/
def Obligations.CompareWriteSetsPreload : Prop :=
  (∀ (s : State) (v : BitVec 16), s.Ready → s.cfg.variant = .hw →
    exec (.ccrWr .one v) s = .next { s with ccr1Pre := v, out := s.out ++ [.ccr .one v] } ∧
    exec (.ccrWr .two v) s = .next { s with ccr2Pre := v, out := s.out ++ [.ccr .two v] }) ∧
  (∀ (s : State) (n : Channel) (v : BitVec 16), s.cfg.variant = .sw →
    exec (.ccrWr n v) s = .refused .absentFromBuild)

/-- R41: whatever is performed, `OUT` only grows, and `LED` is the result of applying the new commands to it in order. -/
def Obligations.LedFollowsCommands : Prop :=
  ∀ (i : Instr) (s t : State), exec i s = .next t →
    ∃ cs : List Command, t.out = s.out ++ cs ∧ t.led = applyCommands s.led cs

/-! ### The `SW` build -/

/-- R81, R82, R86, R87 (decisions D8, D9, D10): the counters, the fade state and the frame of a `TICK`. -/
def Obligations.TickMovesCounters : Prop :=
  ∀ s : State, s.Ready → s.cfg.variant = .sw → s.pend = 0 → s.seg.toNat < s.cfg.F →
    let acc1 := if s.tickcnt = 0 then min (s.acc.toNat + 65280) (255 * s.cfg.F) else s.acc.toNat
    ∃ t, exec .tick s = .next t ∧
      t.tickcnt.toNat = (s.tickcnt.toNat + 1) % 256 ∧
      (s.seg.toNat + 1 = s.cfg.F → t.seg = 0 ∧ t.idx = succOf s.idx ∧ t.acc = 0) ∧
      (s.seg.toNat + 1 ≠ s.cfg.F →
        t.seg.toNat = s.seg.toNat + 1 ∧ t.idx = s.idx ∧ t.acc.toNat = acc1) ∧
      t = { s with tickcnt := t.tickcnt, seg := t.seg, idx := t.idx, acc := t.acc, led := t.led, out := t.out }

/-- R83, R84, R85 (order: decision D9): the commands of a `TICK` at the sub-tick position `t`: at `t = 0` ON for each
light of non-zero duty after the duty step, and OFF for each light whose duty `t` equals. -/
def Obligations.TickIssuesCommands : Prop :=
  ∀ s : State, s.Ready → s.cfg.variant = .sw → s.pend = 0 →
    let acc1 := if s.tickcnt = 0 then min (s.acc.toNat + 65280) (255 * s.cfg.F) else s.acc.toNat
    let d := dutyAt s.cfg acc1
    let p := dutyAt s.cfg (255 * s.cfg.F - acc1)
    let cs := issueIf (s.tickcnt = 0 ∧ d ≠ 0) (.led s.idx true) ++
      (issueIf (s.tickcnt = 0 ∧ p ≠ 0) (.led (prevOf s.idx) true) ++
        (issueIf (s.tickcnt = d) (.led s.idx false) ++ issueIf (s.tickcnt = p) (.led (prevOf s.idx) false)))
    ∃ t, exec .tick s = .next t ∧ t.out = s.out ++ cs ∧ t.led = applyCommands s.led cs

/-- R86, R87, R91: after `m` ticks from reset the cycle counter, the ring index and the tick counter are `m` taken
apart, so the ring turns exactly once every `F` ticks, and the duty is 0 whenever it has just turned. -/
def Obligations.TicksCountSegments : Prop :=
  ∀ (c : Config) (m : Nat), c.legal = true → c.variant = .sw →
    ∃ t, execAll (List.replicate m .tick) (State.resetOf c true) = .next t ∧
      t.seg.toNat = m % c.F ∧ t.idx.toNat = m / c.F % 8 ∧ t.tickcnt.toNat = m % 256 ∧
      (m % c.F = 0 → t.acc = 0)

/-- R88: in a period without a rotation each of the two lights is ON for exactly as many tick intervals as its perceptual
duty: after the `k`-th tick of the period it is ON exactly if `k` is at most that duty. -/
def Obligations.TickOnTimeIsDuty : Prop :=
  ∀ (s : State) (k : Nat), s.Inv → s.halted = false → s.cfg.variant = .sw → s.tickcnt = 0 →
    s.seg.toNat + 256 < s.cfg.F → 1 ≤ k → k ≤ 256 →
    let acc1 := min (s.acc.toNat + 65280) (255 * s.cfg.F)
    ∃ t, execAll (List.replicate k .tick) s = .next t ∧ t.idx = s.idx ∧ t.acc.toNat = acc1 ∧
      t.led.getLsbD s.idx.toNat = decide (k ≤ (dutyAt s.cfg acc1).toNat) ∧
      t.led.getLsbD (prevOf s.idx).toNat = decide (k ≤ (dutyAt s.cfg (255 * s.cfg.F - acc1)).toNat)

/-! ### The `HW` build -/

/-- R96 to R101 (decisions D4, D5, D6, D9): everything an `UPD` writes, and its frame. The rotation comes first, the
thresholds are of the state after it, both lights go ON unconditionally, and the duty step comes last. -/
def Obligations.UpdProgramsPeriod : Prop :=
  ∀ s : State, s.Ready → s.cfg.variant = .hw → s.cfg.env = .opened → s.pend = 0 → s.seg.toNat < s.cfg.F →
    let rot := s.seg.toNat + 1 = s.cfg.F
    let idx1 := if rot then succOf s.idx else s.idx
    let acc1 := if rot then 0 else s.acc.toNat
    ∃ t, exec .upd s = .next t ∧
      t.seg.toNat = (if rot then 0 else s.seg.toNat + 1) ∧ t.idx = idx1 ∧
      t.acc.toNat = min (acc1 + 255) (255 * s.cfg.F) ∧
      t.ccr1Pre.toNat = (dutyAt s.cfg acc1).toNat * s.cfg.P / 255 ∧
      t.ccr2Pre.toNat = (dutyAt s.cfg (255 * s.cfg.F - acc1)).toNat * s.cfg.P / 255 ∧
      t.out = s.out ++ [.ccr .one t.ccr1Pre, .ccr .two t.ccr2Pre, .led idx1 true, .led (prevOf idx1) true] ∧
      t.led = applyCommands s.led [.led idx1 true, .led (prevOf idx1) true] ∧
      t = { s with seg := t.seg, idx := t.idx, acc := t.acc, ccr1Pre := t.ccr1Pre, ccr2Pre := t.ccr2Pre,
                   led := t.led, out := t.out }

/-- R98 (decision D6): a threshold is in `0..P`, is `P` exactly for the perceptual duty 255, and is 0 exactly when
`d * P < 255`. -/
def Obligations.ThresholdsWithinPeriod : Prop :=
  ∀ (s : State) (d : Byte), 1 ≤ s.cfg.P →
    (threshold s d).toNat ≤ s.cfg.P ∧ ((threshold s d).toNat = s.cfg.P ↔ d = 255) ∧
      (threshold s d = 0 ↔ d.toNat * s.cfg.P < 255)

/-- R102: `CC1` turns the light OFF that is active when the handler runs, and the command is issued also when the light
is OFF already; nothing else changes. The handler is the same in both environments of `HW`; where the open one delivers
the event, the operation completes with what the handler leaves. -/
def Obligations.Compare1TurnsActiveOff : Prop :=
  encode .cc1 = .eb 0x02 ∧
  (∀ s : State, s.Ready → s.cfg.variant = .hw → s.cfg.env = .opened → s.pend = 0 →
    exec .cc1 s = .next (handlerOf .cc1 s)) ∧
  (∀ s : State, s.Ready → s.cfg.variant = .hw →
    let t := handlerOf .cc1 s
    t = { s with led := t.led, out := s.out ++ [.led s.idx false] } ∧ t.led.getLsbD s.idx.toNat = false ∧
      ∀ j : BitVec 3, j ≠ s.idx → t.led.getLsbD j.toNat = s.led.getLsbD j.toNat)

/-- R103: `CC2` turns the previous light OFF, in both environments of `HW`; nothing else changes. Where the open
environment delivers the event, the operation completes with what the handler leaves. -/
def Obligations.Compare2TurnsPreviousOff : Prop :=
  encode .cc2 = .eb 0x03 ∧
  (∀ s : State, s.Ready → s.cfg.variant = .hw → s.cfg.env = .opened → s.pend = 0 →
    exec .cc2 s = .next (handlerOf .cc2 s)) ∧
  (∀ s : State, s.Ready → s.cfg.variant = .hw →
    let t := handlerOf .cc2 s
    t = { s with led := t.led, out := s.out ++ [.led (prevOf s.idx) false] } ∧
      t.led.getLsbD (prevOf s.idx).toNat = false ∧
      ∀ j : BitVec 3, j ≠ prevOf s.idx → t.led.getLsbD j.toNat = s.led.getLsbD j.toNat)

/-- R105, R106 (decision D14): what a `CLK` does to the timer unit: the counter, and at the period boundary, and only
there, the preload registers of before the tick become active. -/
def Obligations.ClockAdvancesTimer : Prop :=
  ∀ s : State, s.Ready → s.cfg.variant = .hw → s.cfg.env = .closed → s.pend = 0 → s.cnt.toNat < s.cfg.P →
    ∃ t, exec .clk s = .next t ∧
      (s.cnt.toNat + 1 = s.cfg.P → t.cnt = 0 ∧ t.ccr1Act = s.ccr1Pre ∧ t.ccr2Act = s.ccr2Pre) ∧
      (s.cnt.toNat + 1 ≠ s.cfg.P →
        t.cnt.toNat = s.cnt.toNat + 1 ∧ t.ccr1Act = s.ccr1Act ∧ t.ccr2Act = s.ccr2Act ∧
          t.ccr1Pre = s.ccr1Pre ∧ t.ccr2Pre = s.ccr2Pre ∧ t.idx = s.idx ∧ t.acc = s.acc ∧ t.seg = s.seg) ∧
      t.tickcnt = s.tickcnt ∧ t.halted = s.halted ∧ t.pend = 0 ∧ t.ret = s.ret ∧ t.input = s.input ∧ t.cfg = s.cfg

/-- R99, R106, R110 (decision D14): the thresholds that the `UPD` of a boundary computes wait in the preload registers
for the whole period that it opens, in which the comparators use the ones before, and are active from the next boundary. -/
def Obligations.ThresholdsActOnePeriodLater : Prop :=
  ∀ s : State, s.Ready → s.cfg.variant = .hw → s.cfg.env = .closed → s.pend = 0 → s.cnt.toNat + 1 = s.cfg.P →
    s.seg.toNat < s.cfg.F →
    let acc1 := if s.seg.toNat + 1 = s.cfg.F then 0 else s.acc.toNat
    let c1 := (dutyAt s.cfg acc1).toNat * s.cfg.P / 255
    let c2 := (dutyAt s.cfg (255 * s.cfg.F - acc1)).toNat * s.cfg.P / 255
    (∀ j : Nat, j < s.cfg.P →
      ∃ t, execAll (List.replicate (j + 1) .clk) s = .next t ∧
        t.ccr1Act = s.ccr1Pre ∧ t.ccr2Act = s.ccr2Pre ∧ t.ccr1Pre.toNat = c1 ∧ t.ccr2Pre.toNat = c2) ∧
    (∃ t, execAll (List.replicate (s.cfg.P + 1) .clk) s = .next t ∧ t.ccr1Act.toNat = c1 ∧ t.ccr2Act.toNat = c2)

/-- R107, R108, R113, R124 (decisions D14, D15): a `CLK` of the closed environment is the timer unit's step and then
the events it raised, `UPD` before `CC1` before `CC2`, handled as the open environment handles them. -/
def Obligations.ClockRefinesOpenEvents : Prop :=
  ∀ s : State, s.Ready → s.cfg.variant = .hw → s.cfg.env = .closed → s.pend = 0 → s.cnt.toNat < s.cfg.P →
    let u := s.cnt.toNat + 1 = s.cfg.P
    let cnt1 := if u then 0 else s.cnt + 1
    let a1 := if u then s.ccr1Pre else s.ccr1Act
    let a2 := if u then s.ccr2Pre else s.ccr2Act
    let events := (if u then [Instr.upd] else []) ++
      ((if cnt1 = a1 then [Instr.cc1] else []) ++ (if cnt1 = a2 then [Instr.cc2] else []))
    ∃ o, execAll events { s with cfg := { s.cfg with env := .opened } } = .next o ∧
      exec .clk s = .next { o with cfg := s.cfg, cnt := cnt1, ccr1Act := a1, ccr2Act := a2 }

/-- R113: every run of the closed environment is a run that the open environment admits, with the same fade state,
`LED`, `OUT` and preload registers. -/
def Obligations.ClosedRunsAreOpenRuns : Prop :=
  ∀ (s : State) (n : Nat), s.Ready → s.cfg.variant = .hw → s.cfg.env = .closed → s.pend = 0 →
    ∃ (events : List Instr) (t o : State),
      (∀ i ∈ events, i = .upd ∨ i = .cc1 ∨ i = .cc2) ∧
      execAll (List.replicate n .clk) s = .next t ∧
      execAll events { s with cfg := { s.cfg with env := .opened } } = .next o ∧
      t.idx = o.idx ∧ t.acc = o.acc ∧ t.seg = o.seg ∧ t.led = o.led ∧ t.out = o.out ∧
      t.ccr1Pre = o.ccr1Pre ∧ t.ccr2Pre = o.ccr2Pre

/-- R77, R97, R101, C2: after `m` period events from reset; the ring turns at every `F`-th, and the rotating handler
itself makes the first duty step of the new segment. -/
def Obligations.UpdsCountSegments : Prop :=
  ∀ (c : Config) (m : Nat), c.legal = true → c.variant = .hw → c.env = .opened →
    ∃ t, execAll (List.replicate m .upd) (State.resetOf c true) = .next t ∧
      t.seg.toNat = m % c.F ∧ t.idx.toNat = m / c.F % 8 ∧
      t.acc.toNat = 255 * (if m < c.F then m else m % c.F + 1)

/-- R97, R105: after `m` clock ticks from reset: a period is exactly `P` ticks, and a segment `F` periods. -/
def Obligations.ClocksCountPeriods : Prop :=
  ∀ (c : Config) (m : Nat), c.legal = true → c.variant = .hw → c.env = .closed →
    ∃ t, execAll (List.replicate m .clk) (State.resetOf c true) = .next t ∧
      t.cnt.toNat = m % c.P ∧ t.seg.toNat = m / c.P % c.F ∧ t.idx.toNat = m / c.P / c.F % 8

/-- R109: in a period whose `UPD` does not rotate, each light of the pair is ON from the boundary until the tick at which
the counter equals its active threshold: after `j` ticks more it is ON exactly if `j` is below the threshold. -/
def Obligations.ClockOnTimeIsThreshold : Prop :=
  ∀ (s : State) (j : Nat), s.Inv → s.halted = false → s.cfg.variant = .hw → s.cfg.env = .closed →
    s.cnt.toNat + 1 = s.cfg.P → s.seg.toNat + 1 ≠ s.cfg.F → j < s.cfg.P →
    ∃ t, execAll (List.replicate (j + 1) .clk) s = .next t ∧ t.cnt.toNat = j ∧ t.idx = s.idx ∧
      t.led.getLsbD s.idx.toNat = decide (j < s.ccr1Pre.toNat) ∧
      t.led.getLsbD (prevOf s.idx).toNat = decide (j < s.ccr2Pre.toNat)

/-! ### The whole machine -/

/-- R121, R124 (decision D15): what the dispatcher takes next: nothing while halted; in `SW` bit 0; in `HW` the lowest
set bit of bits 1, 2, 3. -/
def Obligations.DispatchFollowsPriority : Prop :=
  ∀ s : State,
    (s.halted = true → nextSource s = none) ∧
    (s.halted = false → s.cfg.variant = .sw → nextSource s = if s.pend.getLsbD 0 then some .tick else none) ∧
    (s.halted = false → s.cfg.variant = .hw →
      nextSource s =
        if s.pend.getLsbD 1 then some .upd
        else if s.pend.getLsbD 2 then some .cc1
        else if s.pend.getLsbD 3 then some .cc2
        else none)

/-- R123, R126: raising an event sets its source's bit of `PEND`; entering its handler clears that bit; nothing else
changes and nothing is saved. -/
def Obligations.HandlerEntryClearsItsBit : Prop :=
  ∀ (s : State) (e : Source),
    raiseEvent e s = { s with pend := (raiseEvent e s).pend } ∧
    enterHandler e s = { s with pend := (enterHandler e s).pend } ∧
    ∀ k : BitVec 2,
      let own := k.toNat = (match e with | .tick => 0 | .upd => 1 | .cc1 => 2 | .cc2 => 3)
      (raiseEvent e s).pend.getLsbD k.toNat = (if own then true else s.pend.getLsbD k.toNat) ∧
      (enterHandler e s).pend.getLsbD k.toNat = (if own then false else s.pend.getLsbD k.toNat)

/-- R124, R127: the dispatcher looks again after every handler until nothing of the build is pending. -/
def Obligations.DispatcherRunsToEmpty : Prop :=
  ∀ s : State, nextSource (runPending s) = none

/-- R72, R76: but for `ROTATE` performed on its own, the ring index changes only when the segment counter reaches `F` in
a handler, and then by exactly one place. -/
def Obligations.RingTurnsAtSegmentEndOnly : Prop :=
  ∀ (i : Instr) (s t : State), i ≠ .rotate → s.pend = 0 → s.seg.toNat < s.cfg.F → exec i s = .next t →
    t.idx = s.idx ∨
      (t.idx = succOf s.idx ∧ s.seg.toNat + 1 = s.cfg.F ∧ t.seg = 0 ∧ (i = .tick ∨ i = .upd ∨ i = .clk))

/-- R11 to R17, R20, R21, R105, R106: between events nothing is pending, and each register has the operations that may
write it; every other operation leaves it alone. -/
def Obligations.RegistersHaveTheirWriters : Prop :=
  ∀ (i : Instr) (s t : State), s.pend = 0 → exec i s = .next t →
    t.pend = 0 ∧ t.input = s.input ∧
    (i ≠ .tick → t.tickcnt = s.tickcnt) ∧
    (i ≠ .clk → t.cnt = s.cnt ∧ t.ccr1Act = s.ccr1Act ∧ t.ccr2Act = s.ccr2Act) ∧
    (i ∉ [Instr.upd, .clk] → (∀ v, i ≠ .ccrWr .one v) → t.ccr1Pre = s.ccr1Pre) ∧
    (i ∉ [Instr.upd, .clk] → (∀ v, i ≠ .ccrWr .two v) → t.ccr2Pre = s.ccr2Pre) ∧
    (i ∉ [Instr.tick, .upd, .clk] → t.seg = s.seg) ∧
    (i ∉ [Instr.tick, .upd, .clk, .rotate] → t.idx = s.idx) ∧
    (i ∉ [Instr.tick, .upd, .clk, .rotate, .stepDuty] → t.acc = s.acc) ∧
    (i.format = .uop → t.led = s.led ∧ t.out = s.out) ∧
    (i.format ≠ .uop → t.ret = s.ret)
end

