-- ==== Sys2Proof/Laws/State.lean ====
section
/-! SUPPORT. For each named update of the state and each field: the field after the update. No later proof unfolds a
record update. What an operation leaves alone is stated by these; what it writes, by the lemmas after them. -/

namespace Sys2Proof.Machine

@[simp] theorem ledWrite_cfg (i : BitVec 3) (b : Bool) (s : State) : (ledWrite i b s).cfg = s.cfg := rfl
@[simp] theorem ledWrite_idx (i : BitVec 3) (b : Bool) (s : State) : (ledWrite i b s).idx = s.idx := rfl
@[simp] theorem ledWrite_acc (i : BitVec 3) (b : Bool) (s : State) : (ledWrite i b s).acc = s.acc := rfl
@[simp] theorem ledWrite_seg (i : BitVec 3) (b : Bool) (s : State) : (ledWrite i b s).seg = s.seg := rfl
@[simp] theorem ledWrite_tickcnt (i : BitVec 3) (b : Bool) (s : State) : (ledWrite i b s).tickcnt = s.tickcnt := rfl
@[simp] theorem ledWrite_cnt (i : BitVec 3) (b : Bool) (s : State) : (ledWrite i b s).cnt = s.cnt := rfl
@[simp] theorem ledWrite_ccr1Pre (i : BitVec 3) (b : Bool) (s : State) : (ledWrite i b s).ccr1Pre = s.ccr1Pre := rfl
@[simp] theorem ledWrite_ccr2Pre (i : BitVec 3) (b : Bool) (s : State) : (ledWrite i b s).ccr2Pre = s.ccr2Pre := rfl
@[simp] theorem ledWrite_ccr1Act (i : BitVec 3) (b : Bool) (s : State) : (ledWrite i b s).ccr1Act = s.ccr1Act := rfl
@[simp] theorem ledWrite_ccr2Act (i : BitVec 3) (b : Bool) (s : State) : (ledWrite i b s).ccr2Act = s.ccr2Act := rfl
@[simp] theorem ledWrite_halted (i : BitVec 3) (b : Bool) (s : State) : (ledWrite i b s).halted = s.halted := rfl
@[simp] theorem ledWrite_pend (i : BitVec 3) (b : Bool) (s : State) : (ledWrite i b s).pend = s.pend := rfl
@[simp] theorem ledWrite_ret (i : BitVec 3) (b : Bool) (s : State) : (ledWrite i b s).ret = s.ret := rfl
@[simp] theorem ledWrite_input (i : BitVec 3) (b : Bool) (s : State) : (ledWrite i b s).input = s.input := rfl

@[simp] theorem stepDuty_cfg (s : State) : (stepDuty s).cfg = s.cfg := rfl
@[simp] theorem stepDuty_idx (s : State) : (stepDuty s).idx = s.idx := rfl
@[simp] theorem stepDuty_seg (s : State) : (stepDuty s).seg = s.seg := rfl
@[simp] theorem stepDuty_tickcnt (s : State) : (stepDuty s).tickcnt = s.tickcnt := rfl
@[simp] theorem stepDuty_cnt (s : State) : (stepDuty s).cnt = s.cnt := rfl
@[simp] theorem stepDuty_ccr1Pre (s : State) : (stepDuty s).ccr1Pre = s.ccr1Pre := rfl
@[simp] theorem stepDuty_ccr2Pre (s : State) : (stepDuty s).ccr2Pre = s.ccr2Pre := rfl
@[simp] theorem stepDuty_ccr1Act (s : State) : (stepDuty s).ccr1Act = s.ccr1Act := rfl
@[simp] theorem stepDuty_ccr2Act (s : State) : (stepDuty s).ccr2Act = s.ccr2Act := rfl
@[simp] theorem stepDuty_led (s : State) : (stepDuty s).led = s.led := rfl
@[simp] theorem stepDuty_halted (s : State) : (stepDuty s).halted = s.halted := rfl
@[simp] theorem stepDuty_pend (s : State) : (stepDuty s).pend = s.pend := rfl
@[simp] theorem stepDuty_out (s : State) : (stepDuty s).out = s.out := rfl
@[simp] theorem stepDuty_ret (s : State) : (stepDuty s).ret = s.ret := rfl
@[simp] theorem stepDuty_input (s : State) : (stepDuty s).input = s.input := rfl

@[simp] theorem rotate_cfg (s : State) : (rotate s).cfg = s.cfg := rfl
@[simp] theorem rotate_seg (s : State) : (rotate s).seg = s.seg := rfl
@[simp] theorem rotate_tickcnt (s : State) : (rotate s).tickcnt = s.tickcnt := rfl
@[simp] theorem rotate_cnt (s : State) : (rotate s).cnt = s.cnt := rfl
@[simp] theorem rotate_ccr1Pre (s : State) : (rotate s).ccr1Pre = s.ccr1Pre := rfl
@[simp] theorem rotate_ccr2Pre (s : State) : (rotate s).ccr2Pre = s.ccr2Pre := rfl
@[simp] theorem rotate_ccr1Act (s : State) : (rotate s).ccr1Act = s.ccr1Act := rfl
@[simp] theorem rotate_ccr2Act (s : State) : (rotate s).ccr2Act = s.ccr2Act := rfl
@[simp] theorem rotate_led (s : State) : (rotate s).led = s.led := rfl
@[simp] theorem rotate_halted (s : State) : (rotate s).halted = s.halted := rfl
@[simp] theorem rotate_pend (s : State) : (rotate s).pend = s.pend := rfl
@[simp] theorem rotate_out (s : State) : (rotate s).out = s.out := rfl
@[simp] theorem rotate_ret (s : State) : (rotate s).ret = s.ret := rfl
@[simp] theorem rotate_input (s : State) : (rotate s).input = s.input := rfl

@[simp] theorem raiseEvent_cfg (e : Source) (s : State) : (raiseEvent e s).cfg = s.cfg := rfl
@[simp] theorem raiseEvent_idx (e : Source) (s : State) : (raiseEvent e s).idx = s.idx := rfl
@[simp] theorem raiseEvent_acc (e : Source) (s : State) : (raiseEvent e s).acc = s.acc := rfl
@[simp] theorem raiseEvent_seg (e : Source) (s : State) : (raiseEvent e s).seg = s.seg := rfl
@[simp] theorem raiseEvent_tickcnt (e : Source) (s : State) : (raiseEvent e s).tickcnt = s.tickcnt := rfl
@[simp] theorem raiseEvent_cnt (e : Source) (s : State) : (raiseEvent e s).cnt = s.cnt := rfl
@[simp] theorem raiseEvent_ccr1Pre (e : Source) (s : State) : (raiseEvent e s).ccr1Pre = s.ccr1Pre := rfl
@[simp] theorem raiseEvent_ccr2Pre (e : Source) (s : State) : (raiseEvent e s).ccr2Pre = s.ccr2Pre := rfl
@[simp] theorem raiseEvent_ccr1Act (e : Source) (s : State) : (raiseEvent e s).ccr1Act = s.ccr1Act := rfl
@[simp] theorem raiseEvent_ccr2Act (e : Source) (s : State) : (raiseEvent e s).ccr2Act = s.ccr2Act := rfl
@[simp] theorem raiseEvent_led (e : Source) (s : State) : (raiseEvent e s).led = s.led := rfl
@[simp] theorem raiseEvent_halted (e : Source) (s : State) : (raiseEvent e s).halted = s.halted := rfl
@[simp] theorem raiseEvent_out (e : Source) (s : State) : (raiseEvent e s).out = s.out := rfl
@[simp] theorem raiseEvent_ret (e : Source) (s : State) : (raiseEvent e s).ret = s.ret := rfl
@[simp] theorem raiseEvent_input (e : Source) (s : State) : (raiseEvent e s).input = s.input := rfl

@[simp] theorem enterHandler_cfg (e : Source) (s : State) : (enterHandler e s).cfg = s.cfg := rfl
@[simp] theorem enterHandler_idx (e : Source) (s : State) : (enterHandler e s).idx = s.idx := rfl
@[simp] theorem enterHandler_acc (e : Source) (s : State) : (enterHandler e s).acc = s.acc := rfl
@[simp] theorem enterHandler_seg (e : Source) (s : State) : (enterHandler e s).seg = s.seg := rfl
@[simp] theorem enterHandler_tickcnt (e : Source) (s : State) : (enterHandler e s).tickcnt = s.tickcnt := rfl
@[simp] theorem enterHandler_cnt (e : Source) (s : State) : (enterHandler e s).cnt = s.cnt := rfl
@[simp] theorem enterHandler_ccr1Pre (e : Source) (s : State) : (enterHandler e s).ccr1Pre = s.ccr1Pre := rfl
@[simp] theorem enterHandler_ccr2Pre (e : Source) (s : State) : (enterHandler e s).ccr2Pre = s.ccr2Pre := rfl
@[simp] theorem enterHandler_ccr1Act (e : Source) (s : State) : (enterHandler e s).ccr1Act = s.ccr1Act := rfl
@[simp] theorem enterHandler_ccr2Act (e : Source) (s : State) : (enterHandler e s).ccr2Act = s.ccr2Act := rfl
@[simp] theorem enterHandler_led (e : Source) (s : State) : (enterHandler e s).led = s.led := rfl
@[simp] theorem enterHandler_halted (e : Source) (s : State) : (enterHandler e s).halted = s.halted := rfl
@[simp] theorem enterHandler_out (e : Source) (s : State) : (enterHandler e s).out = s.out := rfl
@[simp] theorem enterHandler_ret (e : Source) (s : State) : (enterHandler e s).ret = s.ret := rfl
@[simp] theorem enterHandler_input (e : Source) (s : State) : (enterHandler e s).input = s.input := rfl

@[simp] theorem returning_cfg (v : State → Byte) (s : State) : (returning v s).cfg = s.cfg := rfl
@[simp] theorem returning_idx (v : State → Byte) (s : State) : (returning v s).idx = s.idx := rfl
@[simp] theorem returning_acc (v : State → Byte) (s : State) : (returning v s).acc = s.acc := rfl
@[simp] theorem returning_seg (v : State → Byte) (s : State) : (returning v s).seg = s.seg := rfl
@[simp] theorem returning_tickcnt (v : State → Byte) (s : State) : (returning v s).tickcnt = s.tickcnt := rfl
@[simp] theorem returning_cnt (v : State → Byte) (s : State) : (returning v s).cnt = s.cnt := rfl
@[simp] theorem returning_ccr1Pre (v : State → Byte) (s : State) : (returning v s).ccr1Pre = s.ccr1Pre := rfl
@[simp] theorem returning_ccr2Pre (v : State → Byte) (s : State) : (returning v s).ccr2Pre = s.ccr2Pre := rfl
@[simp] theorem returning_ccr1Act (v : State → Byte) (s : State) : (returning v s).ccr1Act = s.ccr1Act := rfl
@[simp] theorem returning_ccr2Act (v : State → Byte) (s : State) : (returning v s).ccr2Act = s.ccr2Act := rfl
@[simp] theorem returning_led (v : State → Byte) (s : State) : (returning v s).led = s.led := rfl
@[simp] theorem returning_halted (v : State → Byte) (s : State) : (returning v s).halted = s.halted := rfl
@[simp] theorem returning_pend (v : State → Byte) (s : State) : (returning v s).pend = s.pend := rfl
@[simp] theorem returning_out (v : State → Byte) (s : State) : (returning v s).out = s.out := rfl
@[simp] theorem returning_input (v : State → Byte) (s : State) : (returning v s).input = s.input := rfl

@[simp] theorem tickCount_cfg (s : State) : (tickCount s).cfg = s.cfg := rfl
@[simp] theorem tickCount_idx (s : State) : (tickCount s).idx = s.idx := rfl
@[simp] theorem tickCount_acc (s : State) : (tickCount s).acc = s.acc := rfl
@[simp] theorem tickCount_seg (s : State) : (tickCount s).seg = s.seg := rfl
@[simp] theorem tickCount_cnt (s : State) : (tickCount s).cnt = s.cnt := rfl
@[simp] theorem tickCount_ccr1Pre (s : State) : (tickCount s).ccr1Pre = s.ccr1Pre := rfl
@[simp] theorem tickCount_ccr2Pre (s : State) : (tickCount s).ccr2Pre = s.ccr2Pre := rfl
@[simp] theorem tickCount_ccr1Act (s : State) : (tickCount s).ccr1Act = s.ccr1Act := rfl
@[simp] theorem tickCount_ccr2Act (s : State) : (tickCount s).ccr2Act = s.ccr2Act := rfl
@[simp] theorem tickCount_led (s : State) : (tickCount s).led = s.led := rfl
@[simp] theorem tickCount_halted (s : State) : (tickCount s).halted = s.halted := rfl
@[simp] theorem tickCount_pend (s : State) : (tickCount s).pend = s.pend := rfl
@[simp] theorem tickCount_out (s : State) : (tickCount s).out = s.out := rfl
@[simp] theorem tickCount_ret (s : State) : (tickCount s).ret = s.ret := rfl
@[simp] theorem tickCount_input (s : State) : (tickCount s).input = s.input := rfl

@[simp] theorem ccrWrite_cfg (n : Channel) (v : BitVec 16) (s : State) : (ccrWrite n v s).cfg = s.cfg := by cases n <;> rfl
@[simp] theorem ccrWrite_idx (n : Channel) (v : BitVec 16) (s : State) : (ccrWrite n v s).idx = s.idx := by cases n <;> rfl
@[simp] theorem ccrWrite_acc (n : Channel) (v : BitVec 16) (s : State) : (ccrWrite n v s).acc = s.acc := by cases n <;> rfl
@[simp] theorem ccrWrite_seg (n : Channel) (v : BitVec 16) (s : State) : (ccrWrite n v s).seg = s.seg := by cases n <;> rfl
@[simp] theorem ccrWrite_tickcnt (n : Channel) (v : BitVec 16) (s : State) : (ccrWrite n v s).tickcnt = s.tickcnt := by cases n <;> rfl
@[simp] theorem ccrWrite_cnt (n : Channel) (v : BitVec 16) (s : State) : (ccrWrite n v s).cnt = s.cnt := by cases n <;> rfl
@[simp] theorem ccrWrite_ccr1Act (n : Channel) (v : BitVec 16) (s : State) : (ccrWrite n v s).ccr1Act = s.ccr1Act := by cases n <;> rfl
@[simp] theorem ccrWrite_ccr2Act (n : Channel) (v : BitVec 16) (s : State) : (ccrWrite n v s).ccr2Act = s.ccr2Act := by cases n <;> rfl
@[simp] theorem ccrWrite_led (n : Channel) (v : BitVec 16) (s : State) : (ccrWrite n v s).led = s.led := by cases n <;> rfl
@[simp] theorem ccrWrite_halted (n : Channel) (v : BitVec 16) (s : State) : (ccrWrite n v s).halted = s.halted := by cases n <;> rfl
@[simp] theorem ccrWrite_pend (n : Channel) (v : BitVec 16) (s : State) : (ccrWrite n v s).pend = s.pend := by cases n <;> rfl
@[simp] theorem ccrWrite_ret (n : Channel) (v : BitVec 16) (s : State) : (ccrWrite n v s).ret = s.ret := by cases n <;> rfl
@[simp] theorem ccrWrite_input (n : Channel) (v : BitVec 16) (s : State) : (ccrWrite n v s).input = s.input := by cases n <;> rfl

@[simp] theorem countSegment_cfg (s : State) : (countSegment s).cfg = s.cfg := by unfold countSegment; dsimp only; split <;> rfl
@[simp] theorem countSegment_tickcnt (s : State) : (countSegment s).tickcnt = s.tickcnt := by unfold countSegment; dsimp only; split <;> rfl
@[simp] theorem countSegment_cnt (s : State) : (countSegment s).cnt = s.cnt := by unfold countSegment; dsimp only; split <;> rfl
@[simp] theorem countSegment_ccr1Pre (s : State) : (countSegment s).ccr1Pre = s.ccr1Pre := by unfold countSegment; dsimp only; split <;> rfl
@[simp] theorem countSegment_ccr2Pre (s : State) : (countSegment s).ccr2Pre = s.ccr2Pre := by unfold countSegment; dsimp only; split <;> rfl
@[simp] theorem countSegment_ccr1Act (s : State) : (countSegment s).ccr1Act = s.ccr1Act := by unfold countSegment; dsimp only; split <;> rfl
@[simp] theorem countSegment_ccr2Act (s : State) : (countSegment s).ccr2Act = s.ccr2Act := by unfold countSegment; dsimp only; split <;> rfl
@[simp] theorem countSegment_led (s : State) : (countSegment s).led = s.led := by unfold countSegment; dsimp only; split <;> rfl
@[simp] theorem countSegment_halted (s : State) : (countSegment s).halted = s.halted := by unfold countSegment; dsimp only; split <;> rfl
@[simp] theorem countSegment_pend (s : State) : (countSegment s).pend = s.pend := by unfold countSegment; dsimp only; split <;> rfl
@[simp] theorem countSegment_out (s : State) : (countSegment s).out = s.out := by unfold countSegment; dsimp only; split <;> rfl
@[simp] theorem countSegment_ret (s : State) : (countSegment s).ret = s.ret := by unfold countSegment; dsimp only; split <;> rfl
@[simp] theorem countSegment_input (s : State) : (countSegment s).input = s.input := by unfold countSegment; dsimp only; split <;> rfl

@[simp] theorem raiseWhen_cfg (b : Bool) (e : Source) (s : State) : (raiseWhen b e s).cfg = s.cfg := by unfold raiseWhen; split <;> rfl
@[simp] theorem raiseWhen_idx (b : Bool) (e : Source) (s : State) : (raiseWhen b e s).idx = s.idx := by unfold raiseWhen; split <;> rfl
@[simp] theorem raiseWhen_acc (b : Bool) (e : Source) (s : State) : (raiseWhen b e s).acc = s.acc := by unfold raiseWhen; split <;> rfl
@[simp] theorem raiseWhen_seg (b : Bool) (e : Source) (s : State) : (raiseWhen b e s).seg = s.seg := by unfold raiseWhen; split <;> rfl
@[simp] theorem raiseWhen_tickcnt (b : Bool) (e : Source) (s : State) : (raiseWhen b e s).tickcnt = s.tickcnt := by unfold raiseWhen; split <;> rfl
@[simp] theorem raiseWhen_cnt (b : Bool) (e : Source) (s : State) : (raiseWhen b e s).cnt = s.cnt := by unfold raiseWhen; split <;> rfl
@[simp] theorem raiseWhen_ccr1Pre (b : Bool) (e : Source) (s : State) : (raiseWhen b e s).ccr1Pre = s.ccr1Pre := by unfold raiseWhen; split <;> rfl
@[simp] theorem raiseWhen_ccr2Pre (b : Bool) (e : Source) (s : State) : (raiseWhen b e s).ccr2Pre = s.ccr2Pre := by unfold raiseWhen; split <;> rfl
@[simp] theorem raiseWhen_ccr1Act (b : Bool) (e : Source) (s : State) : (raiseWhen b e s).ccr1Act = s.ccr1Act := by unfold raiseWhen; split <;> rfl
@[simp] theorem raiseWhen_ccr2Act (b : Bool) (e : Source) (s : State) : (raiseWhen b e s).ccr2Act = s.ccr2Act := by unfold raiseWhen; split <;> rfl
@[simp] theorem raiseWhen_led (b : Bool) (e : Source) (s : State) : (raiseWhen b e s).led = s.led := by unfold raiseWhen; split <;> rfl
@[simp] theorem raiseWhen_halted (b : Bool) (e : Source) (s : State) : (raiseWhen b e s).halted = s.halted := by unfold raiseWhen; split <;> rfl
@[simp] theorem raiseWhen_out (b : Bool) (e : Source) (s : State) : (raiseWhen b e s).out = s.out := by unfold raiseWhen; split <;> rfl
@[simp] theorem raiseWhen_ret (b : Bool) (e : Source) (s : State) : (raiseWhen b e s).ret = s.ret := by unfold raiseWhen; split <;> rfl
@[simp] theorem raiseWhen_input (b : Bool) (e : Source) (s : State) : (raiseWhen b e s).input = s.input := by unfold raiseWhen; split <;> rfl

@[simp] theorem timerAdvance_cfg (s : State) : (timerAdvance s).cfg = s.cfg := by unfold timerAdvance; split <;> rfl
@[simp] theorem timerAdvance_idx (s : State) : (timerAdvance s).idx = s.idx := by unfold timerAdvance; split <;> rfl
@[simp] theorem timerAdvance_acc (s : State) : (timerAdvance s).acc = s.acc := by unfold timerAdvance; split <;> rfl
@[simp] theorem timerAdvance_seg (s : State) : (timerAdvance s).seg = s.seg := by unfold timerAdvance; split <;> rfl
@[simp] theorem timerAdvance_tickcnt (s : State) : (timerAdvance s).tickcnt = s.tickcnt := by unfold timerAdvance; split <;> rfl
@[simp] theorem timerAdvance_ccr1Pre (s : State) : (timerAdvance s).ccr1Pre = s.ccr1Pre := by unfold timerAdvance; split <;> rfl
@[simp] theorem timerAdvance_ccr2Pre (s : State) : (timerAdvance s).ccr2Pre = s.ccr2Pre := by unfold timerAdvance; split <;> rfl
@[simp] theorem timerAdvance_led (s : State) : (timerAdvance s).led = s.led := by unfold timerAdvance; split <;> rfl
@[simp] theorem timerAdvance_halted (s : State) : (timerAdvance s).halted = s.halted := by unfold timerAdvance; split <;> rfl
@[simp] theorem timerAdvance_pend (s : State) : (timerAdvance s).pend = s.pend := by unfold timerAdvance; split <;> rfl
@[simp] theorem timerAdvance_out (s : State) : (timerAdvance s).out = s.out := by unfold timerAdvance; split <;> rfl
@[simp] theorem timerAdvance_ret (s : State) : (timerAdvance s).ret = s.ret := by unfold timerAdvance; split <;> rfl
@[simp] theorem timerAdvance_input (s : State) : (timerAdvance s).input = s.input := by unfold timerAdvance; split <;> rfl

@[simp] theorem ledWrite_out (i : BitVec 3) (b : Bool) (s : State) : (ledWrite i b s).out = s.out ++ [.led i b] := rfl
@[simp] theorem ledWrite_led_on (i : BitVec 3) (s : State) : (ledWrite i true s).led = s.led ||| (1#8 <<< i.toNat) := rfl
@[simp] theorem ledWrite_led_off (i : BitVec 3) (s : State) : (ledWrite i false s).led = s.led &&& ~~~(1#8 <<< i.toNat) := rfl
@[simp] theorem ccrWrite_out (n : Channel) (v : BitVec 16) (s : State) : (ccrWrite n v s).out = s.out ++ [.ccr n v] := by
  cases n <;> rfl
@[simp] theorem ccrWrite_one_ccr1Pre (v : BitVec 16) (s : State) : (ccrWrite .one v s).ccr1Pre = v := rfl
@[simp] theorem ccrWrite_one_ccr2Pre (v : BitVec 16) (s : State) : (ccrWrite .one v s).ccr2Pre = s.ccr2Pre := rfl
@[simp] theorem ccrWrite_two_ccr1Pre (v : BitVec 16) (s : State) : (ccrWrite .two v s).ccr1Pre = s.ccr1Pre := rfl
@[simp] theorem ccrWrite_two_ccr2Pre (v : BitVec 16) (s : State) : (ccrWrite .two v s).ccr2Pre = v := rfl
@[simp] theorem rotate_idx (s : State) : (rotate s).idx = s.idx + 1 := rfl
@[simp] theorem rotate_acc (s : State) : (rotate s).acc = 0 := rfl
@[simp] theorem raiseEvent_pend (e : Source) (s : State) : (raiseEvent e s).pend = s.pend ||| pendBit e := rfl
@[simp] theorem enterHandler_pend (e : Source) (s : State) : (enterHandler e s).pend = s.pend &&& ~~~(pendBit e) := rfl
@[simp] theorem returning_ret (v : State → Byte) (s : State) : (returning v s).ret = some (v s) := rfl
@[simp] theorem tickCount_tickcnt (s : State) : (tickCount s).tickcnt = s.tickcnt + 1 := rfl

/-- What `STEP_DUTY` leaves in `ACC`: the clamped sum fits 40 bits, because `255*F` does (R12). -/
theorem stepDuty_acc_toNat (s : State) :
    (stepDuty s).acc.toNat = min (s.acc.toNat + s.cfg.stepNumerator) s.cfg.accMax := by
  have hF : s.cfg.F < 2 ^ 32 := s.cfg.fade.isLt
  have hA : s.cfg.accMax = 255 * s.cfg.F := rfl
  show (BitVec.ofNat 40 _).toNat = _
  rw [BitVec.toNat_ofNat, Nat.mod_eq_of_lt]
  omega

/-- The cycle counter's step when the segment ends (R86, R97). -/
theorem countSegment_end (s : State) (h : s.seg + 1 = s.cfg.fade) :
    countSegment s = { s with idx := s.idx + 1, acc := 0, seg := 0 } := by
  unfold countSegment
  exact if_pos h

/-- The cycle counter's step inside a segment. -/
theorem countSegment_inside (s : State) (h : s.seg + 1 ≠ s.cfg.fade) :
    countSegment s = { s with seg := s.seg + 1 } := by
  unfold countSegment
  exact if_neg h

end Sys2Proof.Machine
end

