-- ==== Sys2Proof/Laws/Ops.lean ====
section
/-! SUPPORT. For each shared operation one lemma that says everything it can do, so that no proof unfolds it again. -/

namespace Sys2Proof.Machine

/-- All that `perform` can answer with a next state: the parameters are legal, and either the block is halted and
nothing has changed, or it runs and the effect has happened. -/
theorem perform_next {f : State → State} {s t : State} (h : perform f s = .next t) :
    s.cfg.legal = true ∧ ((s.halted = true ∧ t = s) ∨ (s.halted = false ∧ t = f s)) := by
  unfold perform at h
  split at h
  case isTrue hl =>
    refine ⟨hl, ?_⟩
    split at h
    case isTrue hh => exact .inl ⟨hh, (Host.Outcome.next.inj h).symm⟩
    case isFalse hh => exact .inr ⟨by simpa using hh, (Host.Outcome.next.inj h).symm⟩
  case isFalse => cases h

/-- `perform` in a block that is ready. -/
theorem perform_ready (f : State → State) {s : State} (h : s.Ready) : perform f s = .next (f s) := by
  simp [perform, h.legal, h.running]

/-- `perform` in a halted block with legal parameters. -/
theorem perform_halted (f : State → State) {s : State} (hl : s.cfg.legal = true) (hh : s.halted = true) :
    perform f s = .next s := by
  simp [perform, hl, hh]

/-- `perform` never faults. -/
theorem perform_ne_fault (f : State → State) (s : State) (r : Fault) : perform f s ≠ .fault r := by
  unfold perform
  split
  · split <;> simp
  · simp

/-- All that `receive` can answer with a next state. -/
theorem receive_next {p : Bool} {f : State → State} {s t : State} (h : receive p f s = .next t) :
    p = true ∧ perform f s = .next t := by
  unfold receive at h
  split at h
  case isTrue hp => exact ⟨hp, h⟩
  case isFalse => cases h

/-- `receive` of an event that the build has. -/
theorem receive_present (f : State → State) (s : State) : receive true f s = perform f s := rfl

/-- `receive` never faults. -/
theorem receive_ne_fault (p : Bool) (f : State → State) (s : State) (r : Fault) : receive p f s ≠ .fault r := by
  unfold receive
  split
  · exact perform_ne_fault f s r
  · simp

/-- The mask of `LedWrite` in bits. -/
theorem ledMask_bit (i j : BitVec 3) : (1#8 <<< i.toNat).getLsbD j.toNat = decide (j = i) := by
  revert i j
  decide

/-- The bit of light `j` after `LedWrite(i, b)` (R34). -/
theorem ledWrite_bit (i j : BitVec 3) (b : Bool) (s : State) :
    (ledWrite i b s).led.getLsbD j.toNat = if j = i then b else s.led.getLsbD j.toNat := by
  have hj : j.toNat < 8 := j.isLt
  cases b
  · simp only [ledWrite_led_off, BitVec.getLsbD_and, BitVec.getLsbD_not, ledMask_bit]
    by_cases h : j = i <;> simp [h, hj]
  · simp only [ledWrite_led_on, BitVec.getLsbD_or, ledMask_bit]
    by_cases h : j = i <;> simp [h]

/-- A command that is written to the LED space changes `LED` as the command says (R34, R41). -/
theorem ledWrite_led (i : BitVec 3) (b : Bool) (s : State) :
    (ledWrite i b s).led = applyCommand s.led (.led i b) := by
  cases b <;> rfl

/-- Commands in two parts. -/
theorem applyCommands_append (led : BitVec 8) (xs ys : List Command) :
    applyCommands led (xs ++ ys) = applyCommands (applyCommands led xs) ys := by
  simp [applyCommands, List.foldl_append]

/-- What `PREV_INDEX` gives (R69): both expressions of the source. -/
theorem prevIndexOf_eq (s : State) : prevIndexOf s = s.idx + 7 := by
  unfold prevIndexOf
  generalize s.idx = i
  revert i
  decide

/-- `ROUND` of an operand that R67 gives it is the exact quotient. -/
theorem roundLinear_inside {s : State} {n : Nat} (h : n ≤ s.cfg.accMax) :
    roundLinear s n = BitVec.ofNat 8 ((2 * n + s.cfg.F) / (2 * s.cfg.F)) := by
  rw [roundLinear, if_pos ⟨Int.natCast_nonneg n, Int.ofNat_le.2 h⟩, Int.toNat_natCast]

/-- The previous light's numerator is a natural number as long as `ACC` is in its range (R70). -/
theorem prevNumerator_inside {s : State} (h : s.acc.toNat ≤ s.cfg.accMax) :
    prevNumerator s = ((s.cfg.accMax - s.acc.toNat : Nat) : Int) := by
  rw [prevNumerator, Int.ofNat_sub h]

/-- Running what is pending when no source is. -/
theorem dispatchAll_none (h : Source → State → State) (n : Nat) {s : State} (hn : nextSource s = none) :
    dispatchAll h n s = s := by
  cases n with
  | zero => rfl
  | succ n => simp [dispatchAll, hn]

/-- Running what is pending when `e` is first. -/
theorem dispatchAll_some (h : Source → State → State) (n : Nat) {s : State} {e : Source} (he : nextSource s = some e) :
    dispatchAll h (n + 1) s = dispatchAll h n (h e (enterHandler e s)) := by
  simp [dispatchAll, he]

/-- Which source is taken depends on `PEND`, the build and `HALTED` only. -/
theorem nextSource_congr {s t : State} (hp : s.pend = t.pend) (hc : s.cfg = t.cfg) (hh : s.halted = t.halted) :
    nextSource s = nextSource t := by
  unfold nextSource isPending
  rw [hp, hc, hh]

/-- No handler writes `PEND` (R123), the parameters or `HALTED` (R19). -/
theorem handlerOf_control (e : Source) (s : State) :
    (handlerOf e s).pend = s.pend ∧ (handlerOf e s).cfg = s.cfg ∧ (handlerOf e s).halted = s.halted := by
  cases e
  · simp only [handlerOf, onTick, tickPrevOff, tickActiveOff, tickPeriodStart, tickPrevOn, tickActiveOn]
    refine ⟨?_, ?_, ?_⟩ <;> (repeat' split) <;> simp
  · simp [handlerOf, onUpd, updLightsOn, updThresholds]
  · simp [handlerOf, onCc1]
  · simp [handlerOf, onCc2]

/-- A state whose `PEND` is already what it is set to. -/
theorem withPend_self {s : State} {p : BitVec 4} (h : s.pend = p) : { s with pend := p } = s := by
  cases s
  cases h
  rfl

/-- In `SW`, `TICK` arriving with nothing pending runs its handler once (R123, R124). -/
theorem arrive_tick {s : State} (hh : s.halted = false) (hv : s.cfg.variant = .sw) (hp : s.pend = 0) :
    arrive .tick s = onTick s := by
  have h1 : nextSource (raiseEvent .tick s) = some .tick := by
    simp [nextSource, isPending, hh, hv, hp, pendBit]
  have h2 : enterHandler .tick (raiseEvent .tick s) = s := by
    simp [enterHandler, raiseEvent, pendBit, hp]
    exact withPend_self hp
  have h3 : nextSource (handlerOf .tick s) = none := by
    obtain ⟨hpe, hce, hhe⟩ := handlerOf_control .tick s
    rw [nextSource_congr hpe hce hhe]
    simp [nextSource, isPending, hh, hv, hp]
  rw [arrive, runPending, dispatchAll_some _ _ h1, h2, dispatchAll_none _ _ h3]
  rfl

/-- In `HW`, an event of the timer arriving with nothing pending runs its handler once (R123, R124). -/
theorem arrive_hw (e : Source) (he : e ≠ .tick) {s : State} (hh : s.halted = false) (hv : s.cfg.variant = .hw)
    (hp : s.pend = 0) : arrive e s = handlerOf e s := by
  have h1 : nextSource (raiseEvent e s) = some e := by
    cases e <;> simp [nextSource, isPending, hh, hv, hp, pendBit] at he ⊢
  have h2 : enterHandler e (raiseEvent e s) = s := by
    cases e <;> simp [enterHandler, raiseEvent, pendBit, hp] <;> exact withPend_self hp
  have h3 : nextSource (handlerOf e s) = none := by
    obtain ⟨hpe, hce, hhe⟩ := handlerOf_control e s
    rw [nextSource_congr hpe hce hhe]
    simp [nextSource, isPending, hh, hv, hp]
  rw [arrive, runPending, dispatchAll_some _ _ h1, h2, dispatchAll_none _ _ h3]

/-- The handler of a source when the source raised its event. -/
def handleWhen (b : Bool) (e : Source) (s : State) : State := if b then handlerOf e s else s

/-- An `HW` block that runs and has nothing pending. -/
def IdleHw (s : State) : Prop := s.halted = false ∧ s.cfg.variant = .hw ∧ s.pend = 0

/-- A handler leaves an idle block idle. -/
theorem handlerOf_idleHw (e : Source) {s : State} (h : IdleHw s) : IdleHw (handlerOf e s) := by
  obtain ⟨hp, hc, hh⟩ := handlerOf_control e s
  exact ⟨hh.trans h.1, by rw [hc, h.2.1], hp.trans h.2.2⟩

/-- The cycle counter's step does not read `PEND`. -/
theorem countSegment_withPend (s : State) (p : BitVec 4) :
    countSegment { s with pend := p } = { countSegment s with pend := p } := by
  by_cases h : s.seg + 1 = s.cfg.fade
  · rw [countSegment_end s h]; exact countSegment_end _ h
  · rw [countSegment_inside s h]; exact countSegment_inside _ h

/-- `LedWrite` does not read `PEND`. -/
theorem ledWrite_withPend (i : BitVec 3) (b : Bool) (s : State) (p : BitVec 4) :
    ledWrite i b { s with pend := p } = { ledWrite i b s with pend := p } := rfl

/-- Nor does setting the thresholds. -/
theorem updThresholds_withPend (s : State) (p : BitVec 4) :
    updThresholds { s with pend := p } = { updThresholds s with pend := p } := rfl

/-- Nor does turning both lights on. -/
theorem updLightsOn_withPend (s : State) (p : BitVec 4) :
    updLightsOn { s with pend := p } = { updLightsOn s with pend := p } := rfl

/-- Nor does `STEP_DUTY`. -/
theorem stepDuty_withPend (s : State) (p : BitVec 4) :
    stepDuty { s with pend := p } = { stepDuty s with pend := p } := rfl

/-- The handlers of `HW` do not read `PEND`. -/
theorem handlerOf_withPend (e : Source) (he : e ≠ .tick) (s : State) (p : BitVec 4) :
    handlerOf e { s with pend := p } = { handlerOf e s with pend := p } := by
  cases e
  · exact absurd rfl he
  · simp only [handlerOf, onUpd, countSegment_withPend, updThresholds_withPend, updLightsOn_withPend, stepDuty_withPend]
  · exact ledWrite_withPend _ _ s p
  · exact ledWrite_withPend _ _ s p

/-- Which source an `HW` block that runs takes (R124). -/
theorem nextSource_hw {s : State} (hh : s.halted = false) (hv : s.cfg.variant = .hw) :
    nextSource s =
      (if s.pend &&& 2#4 ≠ 0 then some .upd else if s.pend &&& 4#4 ≠ 0 then some .cc1
        else if s.pend &&& 8#4 ≠ 0 then some .cc2 else none) := by
  by_cases h1 : s.pend &&& 2#4 = 0 <;> by_cases h2 : s.pend &&& 4#4 = 0 <;> by_cases h3 : s.pend &&& 8#4 = 0 <;>
    simp [nextSource, isPending, pendBit, hh, hv, h1, h2, h3]

/-- One round of the dispatcher: the handler runs and its bit is gone. -/
theorem dispatchAll_round {s : State} (p : BitVec 4) (n : Nat) {e : Source} (he : e ≠ .tick)
    (hn : nextSource { s with pend := p } = some e) :
    dispatchAll handlerOf (n + 1) { s with pend := p } =
      dispatchAll handlerOf n { handlerOf e s with pend := p &&& ~~~(pendBit e) } := by
  rw [dispatchAll_some _ _ hn, ← handlerOf_withPend e he]
  rfl

/-- The dispatcher ends when `PEND` is 0. -/
theorem dispatchAll_idleHw (n : Nat) {s : State} (h : IdleHw s) :
    dispatchAll handlerOf n { s with pend := 0 } = s := by
  rw [withPend_self h.2.2]
  exact dispatchAll_none _ _ (by simp [nextSource, isPending, h.1, h.2.1, h.2.2])

/-- In `HW`, what is raised in one clock tick is handled in the order `UPD`, `CC1`, `CC2` (R108, R124). -/
theorem runPending_raised (u m1 m2 : Bool) {s : State} (h : IdleHw s) :
    runPending (raiseWhen m2 .cc2 (raiseWhen m1 .cc1 (raiseWhen u .upd s))) =
      handleWhen m2 .cc2 (handleWhen m1 .cc1 (handleWhen u .upd s)) := by
  have raised : raiseWhen m2 .cc2 (raiseWhen m1 .cc1 (raiseWhen u .upd s)) =
      { s with pend := ((if u then 2#4 else 0) ||| (if m1 then 4#4 else 0)) ||| (if m2 then 8#4 else 0) } := by
    cases u <;> cases m1 <;> cases m2 <;> simp [raiseWhen, raiseEvent, pendBit, h.2.2]
    exact (withPend_self h.2.2).symm
  have round : ∀ (t : State) (p : BitVec 4) (n : Nat) (e : Source), e ≠ .tick → IdleHw t →
      (if p &&& 2#4 ≠ 0 then some .upd else if p &&& 4#4 ≠ 0 then some .cc1
        else if p &&& 8#4 ≠ 0 then some Source.cc2 else none) = some e →
      dispatchAll handlerOf (n + 1) { t with pend := p } =
        dispatchAll handlerOf n { handlerOf e t with pend := p &&& ~~~(pendBit e) } :=
    fun t p n e he ht hn => dispatchAll_round p n he ((nextSource_hw (s := { t with pend := p }) ht.1 ht.2.1).trans hn)
  have up := fun {t : State} (ht : IdleHw t) => handlerOf_idleHw .upd ht
  have c1 := fun {t : State} (ht : IdleHw t) => handlerOf_idleHw .cc1 ht
  have c2 := fun {t : State} (ht : IdleHw t) => handlerOf_idleHw .cc2 ht
  rw [raised, runPending]
  cases u <;> cases m1 <;> cases m2 <;> simp only [handleWhen, if_true, if_false, Bool.false_eq_true]
  · exact dispatchAll_idleHw 4 h
  · rw [round s _ 3 .cc2 (by decide) h (by decide)]
    exact dispatchAll_idleHw 3 (c2 h)
  · rw [round s _ 3 .cc1 (by decide) h (by decide)]
    exact dispatchAll_idleHw 3 (c1 h)
  · rw [round s _ 3 .cc1 (by decide) h (by decide), round _ _ 2 .cc2 (by decide) (c1 h) (by decide)]
    exact dispatchAll_idleHw 2 (c2 (c1 h))
  · rw [round s _ 3 .upd (by decide) h (by decide)]
    exact dispatchAll_idleHw 3 (up h)
  · rw [round s _ 3 .upd (by decide) h (by decide), round _ _ 2 .cc2 (by decide) (up h) (by decide)]
    exact dispatchAll_idleHw 2 (c2 (up h))
  · rw [round s _ 3 .upd (by decide) h (by decide), round _ _ 2 .cc1 (by decide) (up h) (by decide)]
    exact dispatchAll_idleHw 2 (c1 (up h))
  · rw [round s _ 3 .upd (by decide) h (by decide), round _ _ 2 .cc1 (by decide) (up h) (by decide),
      round _ _ 1 .cc2 (by decide) (c1 (up h)) (by decide)]
    exact dispatchAll_idleHw 1 (c2 (c1 (up h)))

/-- A whole `CLK` with nothing pending: the timer unit, then `UPD`, `CC1`, `CC2` as raised (R108). -/
theorem clockTick_eq {s : State} (h : IdleHw s) :
    clockTick s =
      handleWhen (match2 (timerAdvance s)) .cc2
        (handleWhen (match1 (timerAdvance s)) .cc1 (handleWhen (atPeriodEnd s) .upd (timerAdvance s))) := by
  have ha : IdleHw (timerAdvance s) := by simpa [IdleHw] using h
  exact runPending_raised _ _ _ ha

end Sys2Proof.Machine
end

