-- ==== Sys2Proof/Laws/PerInstr.lean ====
section
/-! SUPPORT. The tags that come with an operand decode to it (R50); and a statement about every operation, constructor
by constructor: its word is in the format that spec/opcode_table.json gives it (R45 to R50), and it is no reserved word
of that format (R53). -/

namespace Sys2Proof

/-- The tag 000 with its 8-bit operand (R50, R60). -/
theorem decodeMicroOp_lookup (x : Byte) : decodeMicroOp 0 x = .ok (.lookup x) :=
  congrArg (Except.ok ∘ Instr.lookup) (BitVec.setWidth_eq (x := x))

/-- The tag 001 with its 40-bit operand (R50, R67). -/
theorem decodeMicroOp_round (n : BitVec 40) : decodeMicroOp 1 n = .ok (.round n) :=
  congrArg (Except.ok ∘ Instr.round) (BitVec.setWidth_eq (x := n))

end Sys2Proof

namespace Sys2Proof.Laws.Words

/-- The word of an operation is in its format, and the decoder does not reject it as reserved. -/
def Statement (i : Instr) : Prop :=
  (encode i).format = i.format ∧ decode (encode i) ≠ .error .reservedEventCode

theorem lookup (x : Byte) : Statement (.lookup x) := ⟨rfl, nofun⟩
theorem round (n : BitVec 40) : Statement (.round n) := ⟨rfl, nofun⟩
theorem stepDuty : Statement .stepDuty := ⟨rfl, nofun⟩
theorem duty : Statement .duty := ⟨rfl, nofun⟩
theorem prevIndex : Statement .prevIndex := ⟨rfl, nofun⟩
theorem prevDuty : Statement .prevDuty := ⟨rfl, nofun⟩
theorem rotate : Statement .rotate := ⟨rfl, nofun⟩
theorem tick : Statement .tick := ⟨rfl, nofun⟩
theorem upd : Statement .upd := ⟨rfl, nofun⟩
theorem cc1 : Statement .cc1 := ⟨rfl, nofun⟩
theorem cc2 : Statement .cc2 := ⟨rfl, nofun⟩
theorem clk : Statement .clk := ⟨rfl, nofun⟩
theorem ledOff (i : BitVec 3) : Statement (.ledOff i) := ⟨rfl, nofun⟩
theorem ledOn (i : BitVec 3) : Statement (.ledOn i) := ⟨rfl, nofun⟩
theorem ccrWr (n : Channel) (v : BitVec 16) : Statement (.ccrWr n v) := ⟨rfl, nofun⟩

end Sys2Proof.Laws.Words
end

