-- ==== Sys2Proof/Tests/Slice0.lean ====
section
/-! SUPPORT. The model's own tests. Expected results are the spec's worked examples and vectors, named where they stand;
none is the model's own answer. After them, for every statement with hypotheses, a concrete state that meets them. -/

open Sys2Proof Sys2Proof.Machine Sys2Proof.Claims

-- One theorem after the other: kernel evaluations that wait for each other would each hold a thread of their own.
set_option Elab.async false

namespace Sys2Proof.Tests

/-- A configuration with the reference table. -/
def config (v : Variant) (e : Env) (f : BitVec 32) (p : BitVec 16) : Config :=
  { variant := v, env := e, fade := f, period := p, gamma := .reference }

/-- The state after a successful reset. -/
def start (v : Variant) (e : Env) (f : BitVec 32) (p : BitVec 16) : State := State.resetOf (config v e f p) true

/-- What a next state satisfies; nothing else satisfies it. -/
def gives (o : Host.Outcome State Fault Refusal) (test : State → Bool) : Bool :=
  match o with
  | .next t => test t
  | .fault _ => false
  | .refused _ => false

/-- The refusal of an outcome. -/
def refusalIn (o : Host.Outcome State Fault Refusal) : Option Refusal :=
  match o with
  | .next _ => none
  | .fault _ => none
  | .refused r => some r

def sw25000 : State := start .sw .closed 25000 0
def hw375 : State := start .hw .opened 375 1000
def hwClosed : State := start .hw .closed 375 1000

/-! ### Ill-formed terms -/

/-- R67: a numerator above `255*F` is no operand of `ROUND`; the largest one is. -/
theorem test_wellFormed_round :
    (Instr.round 6375001).wellFormed sw25000.cfg = false ∧ (Instr.round 6375000).wellFormed sw25000.cfg = true := by
  decide

/-- R36, R30: a threshold above `P`, and a compare write in `SW`, are never issued. -/
theorem test_wellFormed_ccrWr :
    (Instr.ccrWr .two 1001).wellFormed hw375.cfg = false ∧ (Instr.ccrWr .two 1000).wellFormed hw375.cfg = true ∧
      (Instr.ccrWr .one 0).wellFormed sw25000.cfg = false := by
  decide

/-! ### Decoding: every constructor by a word written out from R46, R48, R49, R50 -/

theorem test_decode_tick : decode (.eb 0b00000000) = .ok .tick := by decide
theorem test_decode_upd : decode (.eb 0b00000001) = .ok .upd := by decide
theorem test_decode_cc1 : decode (.eb 0b00000010) = .ok .cc1 := by decide
theorem test_decode_cc2 : decode (.eb 0b00000011) = .ok .cc2 := by decide
theorem test_decode_clk : decode (.eb 0b00000100) = .ok .clk := by decide
/-- V-E-2. -/
theorem test_decode_ledOn : decode (.lc 0b1111) = .ok (.ledOn 7) := by decide
/-- `LC[3:1]` = 011 is index 3, `LC[0]` = 0 is OFF (R48). -/
theorem test_decode_ledOff : decode (.lc 0b0110) = .ok (.ledOff 3) := by decide
/-- V-E-6. -/
theorem test_decode_ccrWr_two : decode (.cw 0x103E8) = .ok (.ccrWr .two 1000) := by decide
/-- The same value for channel 1: `CW[16]` = 0 (R49). -/
theorem test_decode_ccrWr_one : decode (.cw 0x003E8) = .ok (.ccrWr .one 1000) := by decide
theorem test_decode_lookup : decode (.uop 0b000 128) = .ok (.lookup 128) := by decide
theorem test_decode_round : decode (.uop 0b001 12500) = .ok (.round 12500) := by decide
theorem test_decode_stepDuty : decode (.uop 0b010 0) = .ok .stepDuty := by decide
theorem test_decode_duty : decode (.uop 0b011 0) = .ok .duty := by decide
theorem test_decode_prevIndex : decode (.uop 0b100 0) = .ok .prevIndex := by decide
theorem test_decode_prevDuty : decode (.uop 0b101 0) = .ok .prevDuty := by decide
theorem test_decode_rotate : decode (.uop 0b110 0) = .ok .rotate := by decide
/-- V-X-1, V-X-2 and the tag 111. -/
theorem test_decode_reserved :
    decode (.eb 0x05) = .error .reservedEventCode ∧ decode (.eb 0x80) = .error .reservedEventCode ∧
      decode (.uop 0b111 0) = .error .reservedEventCode := by decide
/-- The widths of what a caller passes: 8 bits to `LOOKUP` (R60), 40 to `ROUND` (R67), nothing to the others (R51). -/
theorem test_operand_widths :
    (operandWidth 0b000, operandWidth 0b001) = (8, 40) ∧
      ∀ tag ∈ [0b010#3, 0b011#3, 0b100#3, 0b101#3, 0b110#3, 0b111#3], operandWidth tag = 0 := by decide
/-- V-E-7, and a word of the opcode table in each format. -/
theorem test_encode_words :
    encode (.ccrWr .two 65535) = .cw 0x1FFFF ∧ decodeTableWord 8 4 = some .clk ∧ decodeTableWord 3 6 = some .rotate ∧
      decodeTableWord 4 1 = some (.ledOn 0) ∧ decodeTableWord 24 0 = some (.ccrWr .one 0) := by decide
/-- The binary form of a command: `CCR_WR 2, 1000` (R49) and `LED_ON 7` (R48). -/
theorem test_command_words :
    encode (Command.toInstr (.ccr .two 1000)) = .cw 0x103E8 ∧ encode (Command.toInstr (.led 7 true)) = .lc 0b1111 := by
  decide

/-! ### Micro-operations -/

/-- V-G-4. -/
theorem test_lookup : gives (exec (.lookup 128) sw25000) (fun t => t.ret = some 37) = true := by decide +kernel
/-- V-A-4: a tie goes up. -/
theorem test_round_tie : gives (exec (.round 12500) sw25000) (fun t => t.ret = some 1) = true := by decide +kernel
/-- V-A-15: the largest `F` and numerator. -/
theorem test_round_largest :
    gives (exec (.round 1095216660225) (start .sw .closed 4294967295 0)) (fun t => t.ret = some 255) = true := by
  decide +kernel
/-- Above `255*F` (R67 gives no result there) `ROUND` runs; only the record of the free value changes. -/
theorem test_round_outside (n : Nat) :
    gives (exec (.round 6375001) { sw25000 with acc := BitVec.ofNat 40 n })
      (fun t => t.acc = BitVec.ofNat 40 n && t.ret.isSome && t.led = 0 && t.out = []) = true := by
  simp [exec, execRound, perform, returning, gives, sw25000, start, State.resetOf, Config.legal, Config.F, config]
/-- V-A-21: the clamp. -/
theorem test_stepDuty_clamps :
    gives (exec .stepDuty { sw25000 with acc := 6332160 }) (fun t => t.acc = 6375000) = true := by decide +kernel
/-- V-A-25: the step of the `HW` build. -/
theorem test_stepDuty_hw : gives (exec .stepDuty hw375) (fun t => t.acc = 255) = true := by decide +kernel
/-- V-A-32. -/
theorem test_duty : gives (exec .duty { sw25000 with acc := 718080 }) (fun t => t.ret = some 1) = true := by decide +kernel
/-- V-A-32. -/
theorem test_prevDuty : gives (exec .prevDuty { sw25000 with acc := 718080 }) (fun t => t.ret = some 182) = true := by
  decide +kernel
/-- V-A-40. -/
theorem test_prevIndex : gives (exec .prevIndex sw25000) (fun t => t.ret = some 7) = true := by decide +kernel
/-- V-A-44. -/
theorem test_rotate_wraps :
    gives (exec .rotate { sw25000 with idx := 7, acc := 6375000 }) (fun t => t.idx = 0 && t.acc = 0) = true := by
  decide +kernel

/-! ### Events -/

/-- V-SW-1, the worked example of R81. -/
theorem test_tick_first :
    gives (exec .tick sw25000) (fun t => t.acc = 65280 && t.seg = 1 && t.tickcnt = 1 && t.led = 0b10000000 &&
      t.out = [.led 7 true, .led 0 false]) = true := by decide +kernel
/-- V-SW-6: the rotation inside a period; light 0 stays ON. -/
theorem test_tick_rotates :
    gives (exec .tick { sw25000 with acc := 6375000, seg := 24999, tickcnt := 167, led := 0b00000001 })
      (fun t => t.idx = 1 && t.acc = 0 && t.seg = 0 && t.tickcnt = 168 && t.led = 0b00000001 && t.out = []) = true := by
  decide +kernel
/-- P1, third `UPD`: a tie in both duties. -/
theorem test_upd_tie :
    gives (exec .upd { start .hw .opened 2 510 with idx := 1, acc := 255 })
      (fun t => t.acc = 510 && t.seg = 1 && t.ccr1Pre = 74 && t.ccr2Pre = 74 && t.led = 0b00000011) = true := by
  decide +kernel
/-- V-HW-6: the rotating `UPD`. -/
theorem test_upd_rotates :
    gives (exec .upd { hw375 with acc := 95370, seg := 374, ccr1Pre := 988 })
      (fun t => t.idx = 1 && t.acc = 255 && t.seg = 0 &&
        t.out = [.ccr .one 0, .ccr .two 1000, .led 1 true, .led 0 true]) = true := by decide +kernel
/-- The worked example of R102. -/
theorem test_cc1 :
    gives (exec .cc1 { hw375 with idx := 3, led := 0b00001100 })
      (fun t => t.led = 0b00000100 && t.out = [.led 3 false]) = true := by decide +kernel
/-- The worked example of R103. -/
theorem test_cc2 :
    gives (exec .cc2 { hw375 with idx := 3, led := 0b00001100 })
      (fun t => t.led = 0b00001000 && t.out = [.led 2 false]) = true := by decide +kernel
/-- V-HW-3: a boundary with threshold 0 on channel 1 and `P` on channel 2. -/
theorem test_clk_boundary :
    gives (exec .clk { hwClosed with cnt := 999, acc := 255, seg := 1, ccr2Pre := 1000 })
      (fun t => t.cnt = 0 && t.acc = 510 && t.seg = 2 && t.ccr1Act = 0 && t.ccr2Act = 1000 && t.ccr1Pre = 0 &&
        t.ccr2Pre = 988 && t.led = 0b10000000 && t.pend = 0) = true := by decide +kernel
/-- V-HW-5: `CC2` inside a period. -/
theorem test_clk_match :
    gives (exec .clk { hwClosed with cnt := 987, acc := 765, seg := 3, ccr2Act := 988, led := 0b10000000 })
      (fun t => t.cnt = 988 && t.acc = 765 && t.seg = 3 && t.led = 0 && t.out = [.led 7 false]) = true := by
  decide +kernel

/-! ### Commands -/

/-- R34: one bit, and the command is logged although the bit is set already. -/
theorem test_ledOn :
    gives (exec (.ledOn 7) { sw25000 with led := 0b10000001 })
      (fun t => t.led = 0b10000001 && t.out = [.led 7 true]) = true := by decide +kernel
theorem test_ledOff :
    gives (exec (.ledOff 0) { sw25000 with led := 0b10000001 })
      (fun t => t.led = 0b10000000 && t.out = [.led 0 false]) = true := by decide +kernel
/-- R36: channel 2's preload register, and no active register. -/
theorem test_ccrWr :
    gives (exec (.ccrWr .two 1000) hwClosed)
      (fun t => t.ccr2Pre = 1000 && t.ccr1Pre = 0 && t.ccr2Act = 0 && t.out = [.ccr .two 1000]) = true := by
  decide +kernel

/-! ### Steps, refusals, traces -/

/-- V-X-3, V-X-4. -/
theorem test_foreign_events :
    refusalIn (exec .tick hwClosed) = some .foreignEvent ∧ refusalIn (exec .upd sw25000) = some .foreignEvent := by
  decide +kernel
/-- V-R-3: a halted block changes nothing at a `TICK`. -/
theorem test_halted :
    gives (step { State.resetOf sw25000.cfg false with input := [.eb 0] })
      (fun t => t = State.resetOf sw25000.cfg false) = true := by decide +kernel
/-- V-X-2: refused by the step. -/
theorem test_step_reserved : refusalIn (step { sw25000 with input := [.eb 0x80] }) = some .reservedEventCode := by
  decide
/-- A word placed by `withFetchWord` is the first that runs, in a build that has it. -/
theorem test_withFetchWord :
    gives (step (State.reset.withFetchWord 8 4)) (fun t => t.cnt = 1) = true ∧
      gives (step (State.reset.withFetchWord 3 6)) (fun t => t.idx = 1) = true ∧
      gives (step (State.reset.withFetchWord 17 0x103E8)) (fun t => t.ccr2Pre = 1000) = true := by decide +kernel
/-- V-X-5: a trace mixes closed and open. -/
theorem test_trace_mixes : refusalIn (startTrace hwClosed.cfg true [0x04, 0x01]) = some .foreignEvent := by decide +kernel
/-- V-X-6. -/
theorem test_trace_zero_F :
    refusalIn (loadText ".variant SW\n.F 0\n.gamma ref\n.reset ok\nTICK".toList) = some .illegalParameter ∧
      refusalIn (loadText ".variant SW\n.F 1\n.gamma ref\n.reset ok\nTICK".toList) = none := by decide +kernel
/-- V-X-7. -/
theorem test_trace_wide_P :
    refusalIn (loadText ".variant HW\n.P 65536\n.F 1\n.gamma ref\n.reset ok\nCLK".toList) = some .illegalParameter ∧
      refusalIn (loadText ".variant HW\n.P 65535\n.F 1\n.gamma ref\n.reset ok\nCLK".toList) = none := by decide +kernel
/-- The program P1 of the spec: its encoding is `01 02 03 01 03 02 01`. -/
theorem test_trace_P1 :
    gives (loadText
      ".variant HW\n.env open\n.F 2\n.P 510\n.gamma ref # a comment\n.reset ok\nUPD\nCC1\nCC2\nUPD\nCC2\nCC1\nUPD\n".toList)
      (fun t => t = { start .hw .opened 2 510 with
        input := [.eb 1, .eb 2, .eb 3, .eb 1, .eb 3, .eb 2, .eb 1] }) = true := by decide +kernel
/-- V-X-8: a table without G-mono. -/
theorem test_gamma_refused :
    gammaAdmissible (gammaRef.set 100 200) = false ∧ gammaAdmissible (gammaRef.set 0 1) = false ∧
      gammaAdmissible (gammaRef.set 255 254) = false := by decide +kernel
/-- R63: the sum of the entries and the first one that is not zero. -/
theorem test_gammaRef :
    (gammaRef.map BitVec.toNat).sum = 17241 ∧ gammaRef.findIdx (fun x => x != 0) = 28 := by decide +kernel

/-! ### Witnesses: for each statement with hypotheses, a state and operands that meet them, at the clauses' boundaries -/

theorem ready_of {s : State} (hl : s.cfg.legal = true) (hh : s.halted = false) : s.Ready := ⟨hl, hh⟩

/-- StepPerformsNextWord: a word and an empty input. -/
theorem witness_step :
    ({ sw25000 with input := [.eb 4, .eb 0] } : State).input = .eb 4 :: [.eb 0] ∧ decode (.eb 4) = .ok .clk ∧
      State.reset.input = [] := by decide
/-- ReservedCodesRefused: the first and the last reserved byte, and the tag. -/
theorem witness_reserved :
    5 ≤ (5 : Byte).toNat ∧ 5 ≤ (255 : Byte).toNat ∧ ({ sw25000 with input := [.eb 5] } : State).input = .eb 5 :: [] ∧
      ({ sw25000 with input := [.uop 7 0] } : State).input = .uop 7 0 :: [] := by decide
/-- EncodeOfDecode: a word of each format. -/
theorem witness_decodes :
    decode (.eb 4) = .ok .clk ∧ decode (.lc 15) = .ok (.ledOn 7) ∧ decode (.cw 0x1FFFF) = .ok (.ccrWr .two 65535) ∧
      decode (.uop 0 255) = .ok (.lookup 255) := by decide
/-- ForeignEventsRefused, PseudoInstructionsExpand: the three environments. -/
theorem witness_builds :
    sw25000.cfg.variant = .sw ∧ (hwClosed.cfg.variant = .hw ∧ hwClosed.cfg.env = .closed) ∧
      (hw375.cfg.variant = .hw ∧ hw375.cfg.env = .opened) := by decide
/-- PresentEventsComplete: each event in its environment. -/
theorem witness_present :
    sw25000.cfg.legal = true ∧ eventPresent sw25000.cfg .tick = true ∧ hwClosed.cfg.legal = true ∧
      eventPresent hwClosed.cfg .clk = true ∧ hw375.cfg.legal = true ∧ eventPresent hw375.cfg .upd = true ∧
      eventPresent hw375.cfg .cc1 = true ∧ eventPresent hw375.cfg .cc2 = true := by decide
/-- TracesThatStart: an empty trace and one of every open event start, at the smallest `F` and `P`. -/
theorem witness_traces :
    gives (startTrace (config .hw .opened 1 1) false []) (fun t => t.halted) = true ∧
      gives (startTrace (config .hw .opened 1 1) true [1, 2, 3]) (fun t => t.input = [.eb 1, .eb 2, .eb 3]) = true := by
  decide +kernel
/-- LegalParametersExactly: both sides hold at the smallest and largest numbers, and for the reference table. -/
theorem witness_legal :
    (config .hw .closed 1 1).legal = true ∧ (config .hw .closed 4294967295 65535).legal = true ∧
      (config .sw .closed 1 0).legal = true ∧ gammaAdmissible gammaRef = true := by decide +kernel
/-- IllegalParametersStop: `F = 0`, and `P = 0` in `HW`. -/
theorem witness_illegal :
    (config .sw .closed 0 0).legal = false ∧ (config .hw .closed 1 0).legal = false := by decide
/-- TableIsImmutable, LedFollowsCommands, HaltedWrittenAtResetOnly, RegistersHaveTheirWriters, RingTurnsAtSegmentEndOnly:
an operation and a step that give a next state, with nothing pending and `SEG` at its last value. -/
theorem witness_next :
    ({ sw25000 with seg := 24999 } : State).pend = 0 ∧ ({ sw25000 with seg := 24999 } : State).seg.toNat < sw25000.cfg.F ∧
      gives (exec .tick { sw25000 with seg := 24999 }) (fun t => t.idx = 1) = true ∧
      gives (step { hwClosed with input := [.eb 4] }) (fun t => t.cnt = 1) = true := by decide +kernel
/-- ResetMeetsInvariant: a legal configuration other than that of `State.reset`. -/
theorem witness_legal_reset : (config .hw .closed 1 1).legal = true := by decide
/-- StepKeepsInvariant: a state that a run reaches, with an event at its input, and its step. -/
def afterOneUpd : State :=
  { start .hw .opened 2 510 with
    acc := 255, seg := 1, ccr2Pre := 510, led := 0b10000001,
    out := [.ccr .one 0, .ccr .two 510, .led 0 true, .led 7 true], input := [.eb 2] }
theorem witness_invariant : afterOneUpd.Inv ∧ gives (step afterOneUpd) (fun t => t.led = 0b10000000) = true := by
  refine ⟨⟨by decide, by decide, by decide, by decide, by decide, by decide, by decide, by decide, by decide, by decide,
    by decide, ?_⟩, by decide +kernel⟩
  intro c hc i hi
  obtain rfl : c = .eb 2 := by simpa [afterOneUpd] using hc
  obtain rfl : i = .cc1 := by
    have : decode (.eb 2) = .ok .cc1 := by decide
    rw [this] at hi
    cases hi
    rfl
  rfl
/-- HaltedBlockIsFrozen: a halted state of each build in which an operation gives a next state. -/
theorem witness_halted :
    (State.resetOf sw25000.cfg false).halted = true ∧
      gives (exec .rotate (State.resetOf sw25000.cfg false)) (fun t => t.idx = 0) = true ∧
      (State.resetOf hwClosed.cfg false).halted = true ∧ (State.resetOf hwClosed.cfg false).cfg.legal = true ∧
      (State.resetOf hwClosed.cfg false).cfg.env = .closed := by decide +kernel
/-- NothingFaults, LookupGivesEntry, StepDutySaturates, DutiesGiveTableValues, PrevIndexIsGiven, RotateAdvancesRing,
LedWriteSetsOneBit: a ready state, at `ACC = 0` and at `ACC = 255*F`. -/
theorem witness_ready :
    sw25000.Ready ∧ sw25000.acc = 0 ∧ ({ sw25000 with acc := 6375000 } : State).Ready ∧
      ({ sw25000 with acc := 6375000 } : State).acc.toNat = 255 * sw25000.cfg.F :=
  ⟨ready_of (by decide) (by decide), by decide, ready_of (by decide) (by decide), by decide⟩
/-- LookupGivesEntry: a configuration with the reference table. -/
theorem witness_reference : sw25000.cfg.gamma = .reference := rfl
/-- RoundGivesNearest, RoundedDutiesAddUp: the largest numerator in the range and the first outside it; a tie. -/
theorem witness_round :
    (6375000 : BitVec 40).toNat ≤ 255 * sw25000.cfg.F ∧ 255 * sw25000.cfg.F < (6375001 : BitVec 40).toNat ∧
      1 ≤ sw25000.cfg.F ∧ (2 * 12500 + sw25000.cfg.F) % (2 * sw25000.cfg.F) = 0 := by decide
/-- DutiesAreMonotone, DutiesAreComplementary: `ACC` at the top of its range. -/
theorem witness_acc :
    ({ sw25000 with acc := 6375000 } : State).cfg.legal = true ∧
      ({ sw25000 with acc := 6375000 } : State).acc.toNat ≤ 255 * sw25000.cfg.F := by decide
/-- CompareWriteSetsPreload: a ready `HW` block, and an `SW` block. -/
theorem witness_compareWrite : hwClosed.Ready ∧ hwClosed.cfg.variant = .hw ∧ sw25000.cfg.variant = .sw :=
  ⟨ready_of (by decide) (by decide), by decide, by decide⟩
/-- TickMovesCounters, TickIssuesCommands: the last tick of a segment, and one before it. -/
theorem witness_tick :
    sw25000.Ready ∧ sw25000.cfg.variant = .sw ∧ sw25000.pend = 0 ∧ sw25000.seg.toNat + 1 ≠ sw25000.cfg.F ∧
      ({ sw25000 with seg := 24999 } : State).Ready ∧
      ({ sw25000 with seg := 24999 } : State).seg.toNat + 1 = sw25000.cfg.F :=
  ⟨ready_of (by decide) (by decide), by decide, by decide, by decide, ready_of (by decide) (by decide), by decide⟩
/-- TicksCountSegments, UpdsCountSegments, ClocksCountPeriods: a legal configuration of each environment. -/
theorem witness_runs :
    (sw25000.cfg.legal = true ∧ sw25000.cfg.variant = .sw) ∧
      (hw375.cfg.legal = true ∧ hw375.cfg.variant = .hw ∧ hw375.cfg.env = .opened) ∧
      (hwClosed.cfg.legal = true ∧ hwClosed.cfg.variant = .hw ∧ hwClosed.cfg.env = .closed) := by decide
/-- The reset state of a legal configuration, with which the next two witnesses are built. -/
theorem inv_sw25000 : ({ sw25000 with seg := 24743 } : State).Inv :=
  ⟨by decide, by decide, by decide, by decide, by decide, by decide, by decide, by decide, by decide, by decide, by decide,
    by intro c hc; simp [sw25000, start, State.resetOf] at hc⟩
/-- TickOnTimeIsDuty: the last period start with no rotation in its 256 ticks. -/
theorem witness_tickPeriod :
    ({ sw25000 with seg := 24743 } : State).Inv ∧ sw25000.halted = false ∧ sw25000.cfg.variant = .sw ∧
      sw25000.tickcnt = 0 ∧ ({ sw25000 with seg := 24743 } : State).seg.toNat + 256 < sw25000.cfg.F ∧ (1 : Nat) ≤ 256 :=
  ⟨inv_sw25000, by decide, by decide, by decide, by decide, by decide⟩
/-- UpdProgramsPeriod: a rotating `UPD` and one that does not rotate. -/
theorem witness_upd :
    hw375.Ready ∧ hw375.cfg.variant = .hw ∧ hw375.cfg.env = .opened ∧ hw375.pend = 0 ∧ hw375.seg.toNat < hw375.cfg.F ∧
      ({ hw375 with seg := 374 } : State).Ready ∧ ({ hw375 with seg := 374 } : State).seg.toNat + 1 = hw375.cfg.F :=
  ⟨ready_of (by decide) (by decide), by decide, by decide, by decide, by decide, ready_of (by decide) (by decide), by decide⟩
/-- ThresholdsWithinPeriod: the smallest `P`. -/
theorem witness_threshold : 1 ≤ (start .hw .opened 1 1).cfg.P := by decide
/-- Compare1TurnsActiveOff, Compare2TurnsPreviousOff: a block of each environment. -/
theorem witness_compare :
    hw375.Ready ∧ hw375.cfg.variant = .hw ∧ hw375.cfg.env = .opened ∧ hw375.pend = 0 ∧ (7 : BitVec 3) ≠ hw375.idx ∧
      (6 : BitVec 3) ≠ prevOf hw375.idx ∧ hwClosed.Ready ∧ hwClosed.cfg.variant = .hw ∧ hwClosed.cfg.env = .closed :=
  ⟨ready_of (by decide) (by decide), by decide, by decide, by decide, by decide, by decide,
    ready_of (by decide) (by decide), by decide, by decide⟩
/-- ClockAdvancesTimer, ClockRefinesOpenEvents, ClosedRunsAreOpenRuns, ThresholdsActOnePeriodLater: a tick inside a period,
a boundary, a boundary that rotates, and `P = 1`, where every tick is a boundary. -/
theorem witness_clk :
    hwClosed.Ready ∧ hwClosed.cfg.variant = .hw ∧ hwClosed.cfg.env = .closed ∧ hwClosed.pend = 0 ∧
      hwClosed.cnt.toNat + 1 ≠ hwClosed.cfg.P ∧ hwClosed.cnt.toNat < hwClosed.cfg.P ∧
      ({ hwClosed with cnt := 999, seg := 374 } : State).Ready ∧
      ({ hwClosed with cnt := 999, seg := 374 } : State).cnt.toNat + 1 = hwClosed.cfg.P ∧
      ({ hwClosed with cnt := 999, seg := 374 } : State).seg.toNat < hwClosed.cfg.F ∧
      (start .hw .closed 1 1).Ready ∧ (start .hw .closed 1 1).cnt.toNat + 1 = (start .hw .closed 1 1).cfg.P :=
  ⟨ready_of (by decide) (by decide), by decide, by decide, by decide, by decide, by decide,
    ready_of (by decide) (by decide), by decide, by decide, ready_of (by decide) (by decide), by decide⟩
/-- ClockOnTimeIsThreshold: a boundary that does not rotate, with the thresholds 0 and `P`. -/
theorem witness_clkPeriod :
    ({ hwClosed with cnt := 999, ccr2Pre := 1000 } : State).Inv ∧ hwClosed.halted = false ∧
      ({ hwClosed with cnt := 999, ccr2Pre := 1000 } : State).cnt.toNat + 1 = hwClosed.cfg.P ∧
      hwClosed.seg.toNat + 1 ≠ hwClosed.cfg.F ∧ 999 < hwClosed.cfg.P :=
  ⟨⟨by decide, by decide, by decide, by decide, by decide, by decide, by decide, by decide, by decide, by decide, by decide,
    by intro c hc; simp [hwClosed, start, State.resetOf] at hc⟩, by decide, by decide, by decide, by decide⟩
/-- DispatchFollowsPriority: a halted state and running ones of both builds, with every bit pending. -/
theorem witness_dispatch :
    (State.resetOf sw25000.cfg false).halted = true ∧ ({ sw25000 with pend := 15 } : State).halted = false ∧
      sw25000.cfg.variant = .sw ∧ ({ hwClosed with pend := 15 } : State).halted = false ∧ hwClosed.cfg.variant = .hw := by
  decide

end Sys2Proof.Tests
end

/-! Proofs of the statements of 20_memory.md. -/

namespace Sys2Proof.Machine

/-- An LED command performed on its own goes through `perform`, whichever its level is (R34, R48). -/
theorem exec_ledCommand (i : BitVec 3) (b : Bool) (s : State) :
    exec (if b then .ledOn i else .ledOff i) s = perform (ledWrite i b) s := by
  cases b <;> rfl

/-- `LedWrite` reaches `LED` and `OUT` only (R34). -/
theorem ledWrite_frame (i : BitVec 3) (b : Bool) (s : State) :
    ledWrite i b s = { s with led := (ledWrite i b s).led, out := s.out ++ [.led i b] } := rfl

/-- Settles O29: a ready block performs `LedWrite`, whose frame and bits are known. -/
theorem ledWriteSetsOneBit : Obligations.LedWriteSetsOneBit := by
  intro s i b ready
  have completes : exec (if b then .ledOn i else .ledOff i) s = .next (ledWrite i b s) := by
    rw [exec_ledCommand, perform_ready _ ready]
  have written : (ledWrite i b s).led.getLsbD i.toNat = b := by
    rw [ledWrite_bit, if_pos rfl]
  have kept (j : BitVec 3) (other : j ≠ i) :
      (ledWrite i b s).led.getLsbD j.toNat = s.led.getLsbD j.toNat := by
    rw [ledWrite_bit, if_neg other]
  exact ⟨ledWrite i b s, completes, ledWrite_frame i b s, written, kept⟩

end Sys2Proof.Machine

/-! Proofs of the statements of 41_active_led_state.md. -/

namespace Sys2Proof.Machine

/-- The ring's successor (R73) is the 3-bit increment, which wraps by itself. -/
theorem succOf_eq_add_one (i : BitVec 3) : Claims.succOf i = i + 1 :=
  BitVec.eq_of_toNat_eq (by simp [Claims.succOf])

/-- The ring's predecessor (R69) is the 3-bit sum with 7. -/
theorem prevOf_eq_add_seven (i : BitVec 3) : Claims.prevOf i = i + 7 :=
  BitVec.eq_of_toNat_eq (by simp [Claims.prevOf])

/-- `ROTATE` reaches `IDX` and `ACC` only (R73). -/
theorem rotate_frame (s : State) : rotate s = { s with idx := Claims.succOf s.idx, acc := 0 } := by
  rw [succOf_eq_add_one]
  rfl

/-- After `ROTATE` the previous light is the one that was active: the steps by 1 and by 7 go once round the ring. -/
theorem prevIndexOf_rotate (s : State) : prevIndexOf (rotate s) = s.idx := by
  have fullTurn : (1 : BitVec 3) + 7 = 0 := by decide
  rw [prevIndexOf_eq, rotate_idx, BitVec.add_assoc, fullTurn, add_zero]

/-- The two linear duties add up to 255 (R70). -/
theorem acc_add_prevNumerator (s : State) : (s.acc.toNat : Int) + prevNumerator s = 255 * s.cfg.F := by
  simp [prevNumerator, Config.accMax]

/-- After `ROTATE` the previous light has the largest linear duty, 255, because the active one has 0 (R70). -/
theorem prevNumerator_rotate (s : State) : prevNumerator (rotate s) = 255 * s.cfg.F := by
  simpa using acc_add_prevNumerator (rotate s)

/-- Settles O28: a ready block performs `ROTATE`, whose frame and previous light are known. -/
theorem rotateAdvancesRing : Obligations.RotateAdvancesRing := by
  refine ⟨rfl, fun s ready => ?_⟩
  have completes : exec .rotate s = .next (rotate s) := perform_ready rotate ready
  exact ⟨rotate s, completes, rotate_frame s, prevIndexOf_rotate s, prevNumerator_rotate s⟩

/-- The first expression of R69. -/
theorem prevIndexOf_eq_prevOf (s : State) : prevIndexOf s = Claims.prevOf s.idx := by
  rw [prevIndexOf_eq, prevOf_eq_add_seven]

/-- The second expression of R69: there is nothing to borrow from when the index is not 0. -/
theorem prevIndexOf_eq_ite (s : State) :
    prevIndexOf s = if s.idx = 0 then 7 else BitVec.ofNat 3 (s.idx.toNat - 1) := by
  by_cases first : s.idx = 0
  · rw [prevIndexOf, if_pos first, if_pos first]
  · rw [prevIndexOf, if_neg first, if_neg first]
    bv_omega

/-- The pair consists of two lights: a step by 7 does not go round the ring (R69). -/
theorem prevIndexOf_ne_idx (s : State) : prevIndexOf s ≠ s.idx := by
  rw [prevIndexOf_eq]
  bv_omega

/-- Settles O25: both expressions of R69, and the index is another light's. -/
theorem prevIndexTwoForms : Obligations.PrevIndexTwoForms :=
  ⟨rfl, fun s => ⟨prevIndexOf_eq_prevOf s, prevIndexOf_eq_ite s, prevIndexOf_ne_idx s⟩⟩

/-- Settles O27: the sum is constant and `ACC` is no negative number, so the bounds of `ACC` give those of the
complement. -/
theorem dutiesAreComplementary : Obligations.DutiesAreComplementary := by
  intro s
  have sum := acc_add_prevNumerator s
  refine ⟨sum, fun inRange => ?_⟩
  constructor <;> omega

end Sys2Proof.Machine

/-! Proofs of the statements of 43_compare_scheduler_hw.md. -/

namespace Sys2Proof.Machine

/-- An event that the open environment delivers to a ready block with nothing pending completes with what its handler
leaves (R47, R123, R124). -/
theorem receive_arrive_opened (e : Source) (he : e ≠ .tick) {s : State} (ready : s.Ready) (hv : s.cfg.variant = .hw)
    (ho : s.cfg.env = .opened) (hp : s.pend = 0) :
    receive (isHwOpened s.cfg) (arrive e) s = .next (handlerOf e s) := by
  have present : isHwOpened s.cfg = true := by simp [isHwOpened, hv, ho]
  rw [present, receive_present, perform_ready _ ready, arrive_hw e he ready.running hv hp]

/-- Turning a light OFF: the frame, the light's own bit, and the other lights (R34). -/
theorem ledWrite_off_effect (i : BitVec 3) (s : State) :
    let t := ledWrite i false s
    t = { s with led := t.led, out := s.out ++ [.led i false] } ∧ t.led.getLsbD i.toNat = false ∧
      ∀ j : BitVec 3, j ≠ i → t.led.getLsbD j.toNat = s.led.getLsbD j.toNat := by
  refine ⟨ledWrite_frame i false s, ?_, fun j other => ?_⟩
  · rw [ledWrite_bit, if_pos rfl]
  · rw [ledWrite_bit, if_neg other]

/-- The `CC2` handler addresses the ring's predecessor (R69, R103). -/
theorem handlerOf_cc2 (s : State) : handlerOf .cc2 s = ledWrite (Claims.prevOf s.idx) false s := by
  rw [← prevIndexOf_eq_prevOf]
  rfl

/-- Settles O38: the event's arrival runs the handler, and the handler is one OFF command to the active light. -/
theorem compare1TurnsActiveOff : Obligations.Compare1TurnsActiveOff := by
  refine ⟨rfl, fun s ready hv ho hp => ?_, fun s _ _ => ?_⟩
  · exact receive_arrive_opened .cc1 (by decide) ready hv ho hp
  · exact ledWrite_off_effect s.idx s

/-- Settles O39: the event's arrival runs the handler, and the handler is one OFF command to the previous light. -/
theorem compare2TurnsPreviousOff : Obligations.Compare2TurnsPreviousOff := by
  refine ⟨rfl, fun s ready hv ho hp => ?_, fun s _ _ => ?_⟩
  · exact receive_arrive_opened .cc2 (by decide) ready hv ho hp
  · rw [handlerOf_cc2]
    exact ledWrite_off_effect (Claims.prevOf s.idx) s

end Sys2Proof.Machine

/-! Proofs of the statements of 30_encoding.md about words. -/

namespace Sys2Proof

/-- An LED command word read back (R48): the low bit is the level, the three above it the index. -/
theorem decodeLedCommand_append (i : BitVec 3) (b : Bool) :
    decodeLedCommand (i ++ BitVec.ofBool b) = if b then .ledOn i else .ledOff i := by
  have level : (i ++ BitVec.ofBool b).getLsbD 0 = b := by
    rw [BitVec.getLsbD_append]
    cases b <;> rfl
  have index : (i ++ BitVec.ofBool b).extractLsb' 1 3 = i := BitVec.extractLsb'_append_eq_left
  rw [decodeLedCommand, level, index]

/-- A compare write word read back (R49): the top bit is the channel, the 16 below it the value. -/
theorem decodeCompareWrite_append (n : Channel) (v : BitVec 16) :
    decodeCompareWrite (n.select ++ v) = .ccrWr n v := by
  have value : (n.select ++ v).extractLsb' 0 16 = v := BitVec.extractLsb'_append_eq_right
  have channel : (n.select ++ v).getLsbD 16 = n.select.getLsbD 0 := by
    rw [BitVec.getLsbD_append]
    rfl
  rw [decodeCompareWrite, value, channel]
  cases n <;> rfl

/-- The word of an operation has the format of the opcode table (R45). -/
theorem encode_format (i : Instr) : (encode i).format = i.format := by
  cases i <;> rfl

/-- No bit of an operand is dropped (R46, R48, R49, R50). -/
theorem decode_encode (i : Instr) : decode (encode i) = .ok i := by
  cases i
  case lookup x => exact decodeMicroOp_lookup x
  case round n => exact decodeMicroOp_round n
  case ledOff i => exact congrArg Except.ok (decodeLedCommand_append i false)
  case ledOn i => exact congrArg Except.ok (decodeLedCommand_append i true)
  case ccrWr n v => exact congrArg Except.ok (decodeCompareWrite_append n v)
  all_goals rfl

/-- Settles O4: the operands are read back whole, operation by operation. -/
theorem decodeOfEncode : Obligations.DecodeOfEncode :=
  fun i => ⟨decode_encode i, encode_format i⟩

/-- An LED command word is an index and a level, and nothing else (R48). -/
theorem encode_decodeLedCommand (w : BitVec 4) : encode (decodeLedCommand w) = .lc w := by
  revert w
  decide

/-- The channel that a select bit names has that select bit (R49). -/
theorem select_of_bit (w : BitVec 17) :
    (if w.getLsbD 16 then Channel.two else .one).select = w.extractLsb' 16 1 := by
  have top : w.extractLsb' 16 1 = BitVec.ofBool (w.getLsbD 16) := by
    ext k hk
    obtain rfl : k = 0 := by omega
    simp
  rw [top]
  cases w.getLsbD 16 <;> rfl

/-- A compare write word is a channel and a value, and nothing else (R49). -/
theorem encode_decodeCompareWrite (w : BitVec 17) : encode (decodeCompareWrite w) = .cw w := by
  have whole : w.extractLsb' 16 1 ++ w.extractLsb' 0 16 = w := by
    exact (BitVec.extractLsb'_append_extractLsb'_eq_extractLsb' (start₁ := 0) rfl).trans
      BitVec.extractLsb'_eq_self
  rw [decodeCompareWrite, encode, select_of_bit, whole]

/-- An event byte that decodes is the operation's own (R46). -/
theorem encode_of_decodeEvent {b : Byte} {i : Instr} (h : decodeEvent b = .ok i) : encode i = .eb b := by
  have same {n : Byte} (hn : b.toNat = n.toNat) : Code.eb n = .eb b :=
    congrArg Code.eb (BitVec.eq_of_toNat_eq hn).symm
  unfold decodeEvent at h
  split at h
  case h_6 => cases h
  all_goals
    cases h
    exact same ‹_›

/-- The eight tags of R50. -/
theorem tag_cases (tag : BitVec 3) :
    tag = 0 ∨ tag = 1 ∨ tag = 2 ∨ tag = 3 ∨ tag = 4 ∨ tag = 5 ∨ tag = 6 ∨ tag = 7 := by
  revert tag
  decide

/-- A tag with its operand that decodes is the operation's own; where nothing is passed there is one operand only
(R50, R51). -/
theorem encode_of_decodeMicroOp {tag : BitVec 3} {arg : BitVec (operandWidth tag)} {i : Instr}
    (h : decodeMicroOp tag arg = .ok i) : encode i = .uop tag arg := by
  rcases tag_cases tag with rfl | rfl | rfl | rfl | rfl | rfl | rfl | rfl
  · cases (decodeMicroOp_lookup arg).symm.trans h
    rfl
  · cases (decodeMicroOp_round arg).symm.trans h
    rfl
  iterate 5
    · cases h
      exact congrArg (Code.uop _) (BitVec.eq_nil arg).symm
  · cases h

/-- Settles O5: format by format, what decodes is the encoder's own word. -/
theorem encodeOfDecode : Obligations.EncodeOfDecode := by
  intro c i h
  cases c with
  | eb b => exact encode_of_decodeEvent h
  | lc w =>
    cases h
    exact encode_decodeLedCommand w
  | cw w =>
    cases h
    exact encode_decodeCompareWrite w
  | uop tag arg => exact encode_of_decodeMicroOp h

/-- Settles O3: each fixed word is evaluated in its format. -/
theorem tableWordsDecode : Obligations.TableWordsDecode :=
  ⟨rfl, rfl, rfl, rfl⟩

end Sys2Proof

namespace Sys2Proof.Machine

/-- Without a word at the input the block idles (R120, R139). -/
theorem step_nil {s : State} (hin : s.input = []) : step s = .next s := by
  simp only [step, fetch, hin]

/-- A word that decodes is performed in the state from which it has been taken (R120, R125). -/
theorem step_decoded {s : State} {c : Code} {rest : List Code} {i : Instr} (hin : s.input = c :: rest)
    (hc : decode c = .ok i) : step s = exec i { s with input := rest } := by
  simp only [step, fetch, hin, hc]

/-- A word that is no operation is refused by name (R53). -/
theorem step_rejected {s : State} {c : Code} {rest : List Code} {e : DecodeError} (hin : s.input = c :: rest)
    (hc : decode c = .error e) : step s = .refused (refusalOf e) := by
  simp only [step, fetch, hin, hc]

/-- Settles O1: with a word and without one. -/
theorem stepPerformsNextWord : Obligations.StepPerformsNextWord :=
  ⟨fun _ _ _ _ => step_decoded, fun _ => step_nil⟩

/-- An event byte of 5 or more is reserved (R46). -/
theorem decodeEvent_reserved {b : Byte} (h : 5 ≤ b.toNat) : decodeEvent b = .error .reservedEventCode := by
  unfold decodeEvent
  split
  case h_6 => rfl
  all_goals omega

/-- Settles O2: neither kind of word decodes. -/
theorem reservedCodesRefused : Obligations.ReservedCodesRefused :=
  ⟨fun _ _ _ h hin => step_rejected hin (decodeEvent_reserved h), fun _ _ _ hin => step_rejected hin rfl⟩

/-- All that a step can do with a next state: it idles, or it performs the word it takes (R120, R125). -/
theorem step_next {s t : State} (h : step s = .next t) :
    (s.input = [] ∧ t = s) ∨
      ∃ c rest i, s.input = c :: rest ∧ decode c = .ok i ∧ exec i { s with input := rest } = .next t := by
  cases hin : s.input with
  | nil => exact .inl ⟨rfl, (Host.Outcome.next.inj ((step_nil hin).symm.trans h)).symm⟩
  | cons c rest =>
    cases hc : decode c with
    | ok i => exact .inr ⟨c, rest, i, rfl, hc, (step_decoded hin hc).symm.trans h⟩
    | error e => cases (step_rejected hin hc).symm.trans h

end Sys2Proof.Machine

/-! What every operation has in common: in which builds it exists, what it does to a ready block, and how a relation
that every update of the state keeps comes to hold for all operations. -/

namespace Sys2Proof.Machine

/-- Whether the build and its environment have an operation (R30, R47). -/
def offered (c : Config) : Instr → Bool
  | .tick => isSw c
  | .upd => isHwOpened c
  | .cc1 => isHwOpened c
  | .cc2 => isHwOpened c
  | .clk => isHwClosed c
  | .ccrWr _ _ => decide (c.variant = .hw)
  | _ => true

/-- The name under which an operation that the build does not have is refused (R30, R53). -/
def absence : Instr → Refusal
  | .ccrWr _ _ => .absentFromBuild
  | _ => .foreignEvent

/-- What an operation does to a block that is ready for it. -/
def effectOf : Instr → State → State
  | .lookup x => returning fun s => romRead s x
  | .round n => returning fun s => roundLinear s n.toNat
  | .stepDuty => stepDuty
  | .duty => returning dutyOf
  | .prevIndex => returning fun s => (prevIndexOf s).setWidth 8
  | .prevDuty => returning prevDutyOf
  | .rotate => rotate
  | .tick => arrive .tick
  | .upd => arrive .upd
  | .cc1 => arrive .cc1
  | .cc2 => arrive .cc2
  | .clk => clockTick
  | .ledOff j => ledWrite j false
  | .ledOn j => ledWrite j true
  | .ccrWr n v => ccrWrite n v

/-- An operation that the build has goes through `perform` with its effect. -/
theorem exec_offered {i : Instr} {s : State} (h : offered s.cfg i = true) :
    exec i s = perform (effectOf i) s := by
  cases i
  case ccrWr n v =>
    have hw : s.cfg.variant = .hw := of_decide_eq_true h
    simp only [exec, execCcrWr, hw, effectOf]
  case tick => exact if_pos h
  case upd => exact if_pos h
  case cc1 => exact if_pos h
  case cc2 => exact if_pos h
  case clk => exact if_pos h
  all_goals rfl

/-- An operation that the build does not have is refused by name, in every state. -/
theorem exec_absent {i : Instr} {s : State} (h : offered s.cfg i = false) :
    exec i s = .refused (absence i) := by
  cases i
  case ccrWr n v =>
    have sw : s.cfg.variant = .sw := by
      cases hv : s.cfg.variant
      · rfl
      · exact absurd hv (of_decide_eq_false h)
    simp only [exec, execCcrWr, sw, absence]
  case tick => exact if_neg (Bool.eq_false_iff.mp h)
  case upd => exact if_neg (Bool.eq_false_iff.mp h)
  case cc1 => exact if_neg (Bool.eq_false_iff.mp h)
  case cc2 => exact if_neg (Bool.eq_false_iff.mp h)
  case clk => exact if_neg (Bool.eq_false_iff.mp h)
  all_goals cases h

/-- An operation that the build has, in a ready block. -/
theorem exec_ready {i : Instr} {s : State} (h : offered s.cfg i = true) (ready : s.Ready) :
    exec i s = .next (effectOf i s) := by
  rw [exec_offered h, perform_ready _ ready]

/-- An operation that the build has, in a halted block with legal parameters. -/
theorem exec_halted {i : Instr} {s : State} (h : offered s.cfg i = true) (legal : s.cfg.legal = true)
    (halted : s.halted = true) : exec i s = .next s := by
  rw [exec_offered h, perform_halted _ legal halted]

/-- All that an operation can answer with a next state: its build has it, the parameters are legal, and either the block
is halted and nothing has changed, or it runs and the effect has happened. -/
theorem exec_next {i : Instr} {s t : State} (h : exec i s = .next t) :
    offered s.cfg i = true ∧ s.cfg.legal = true ∧
      ((s.halted = true ∧ t = s) ∨ (s.halted = false ∧ t = effectOf i s)) := by
  cases ho : offered s.cfg i with
  | true => exact ⟨rfl, perform_next ((exec_offered ho).symm.trans h)⟩
  | false => cases (exec_absent ho).symm.trans h

/-- No operation faults (R128). -/
theorem exec_ne_fault (i : Instr) (s : State) (r : Fault) : exec i s ≠ .fault r := by
  cases ho : offered s.cfg i with
  | true =>
    rw [exec_offered ho]
    exact perform_ne_fault _ s r
  | false => simp [exec_absent ho]

/-- A relation between a state and a later one that every named update of the state keeps. -/
structure KeptByUpdates (R : State → State → Prop) : Prop where
  refl : ∀ s, R s s
  trans : ∀ {s t u}, R s t → R t u → R s u
  led : ∀ i b s, R s (ledWrite i b s)
  ccr : ∀ n v s, R s (ccrWrite n v s)
  duty : ∀ s, R s (stepDuty s)
  turn : ∀ s, R s (rotate s)
  segment : ∀ s, R s (countSegment s)
  subTick : ∀ s, R s (tickCount s)
  raised : ∀ e s, R s (raiseEvent e s)
  entered : ∀ e s, R s (enterHandler e s)
  record : ∀ v s, R s (returning v s)
  timer : ∀ s, R s (timerAdvance s)

namespace KeptByUpdates

variable {R : State → State → Prop}

/-- An update that happens under a condition. -/
theorem when (k : KeptByUpdates R) {p : Prop} [Decidable p] {s t : State} (h : R s t) : R s (if p then t else s) := by
  split
  · exact h
  · exact k.refl s

/-- S2 of the `TICK` handler. -/
theorem periodStart (k : KeptByUpdates R) (t : BitVec 8) (s : State) : R s (tickPeriodStart t s) :=
  k.when (k.trans (k.duty s) (k.trans (k.when (k.led _ true _)) (k.when (k.led _ true _))))

/-- Every handler. -/
theorem handler (k : KeptByUpdates R) (e : Source) (s : State) : R s (handlerOf e s) := by
  cases e with
  | tick => exact k.trans (k.periodStart _ s) (k.trans (k.when (k.led _ _ _)) (k.trans (k.when (k.led _ _ _))
      (k.trans (k.segment _) (k.subTick _))))
  | upd => exact k.trans (k.segment s) (k.trans (k.ccr _ _ _) (k.trans (k.ccr _ _ _)
      (k.trans (k.led _ _ _) (k.trans (k.led _ _ _) (k.duty _)))))
  | cc1 => exact k.led _ _ s
  | cc2 => exact k.led _ _ s

/-- The dispatcher, for any fuel. -/
theorem dispatch (k : KeptByUpdates R) (n : Nat) (s : State) : R s (dispatchAll handlerOf n s) := by
  induction n generalizing s with
  | zero => exact k.refl s
  | succ n ih =>
    cases he : nextSource s with
    | none =>
      rw [dispatchAll_none _ _ he]
      exact k.refl s
    | some e =>
      rw [dispatchAll_some _ _ he]
      exact k.trans (k.entered e s) (k.trans (k.handler e _) (ih _))

/-- The arrival of an event. -/
theorem arrival (k : KeptByUpdates R) (e : Source) (s : State) : R s (arrive e s) :=
  k.trans (k.raised e s) (k.dispatch 4 _)

/-- A whole `CLK`. -/
theorem clock (k : KeptByUpdates R) (s : State) : R s (clockTick s) := by
  have raise (b : Bool) (e : Source) (s : State) : R s (raiseWhen b e s) := k.when (k.raised e s)
  exact k.trans (k.timer s) (k.trans (k.trans (raise _ _ _) (k.trans (raise _ _ _) (raise _ _ _))) (k.dispatch 4 _))

/-- The effect of every operation. -/
theorem effect (k : KeptByUpdates R) (i : Instr) (s : State) : R s (effectOf i s) := by
  cases i
  case stepDuty => exact k.duty s
  case rotate => exact k.turn s
  case tick => exact k.arrival .tick s
  case upd => exact k.arrival .upd s
  case cc1 => exact k.arrival .cc1 s
  case cc2 => exact k.arrival .cc2 s
  case clk => exact k.clock s
  case ledOff j => exact k.led j false s
  case ledOn j => exact k.led j true s
  case ccrWr n v => exact k.ccr n v s
  case lookup x => exact k.record (fun s => romRead s x) s
  case round n => exact k.record (fun s => roundLinear s n.toNat) s
  case prevIndex => exact k.record (fun s => (prevIndexOf s).setWidth 8) s
  case duty => exact k.record dutyOf s
  case prevDuty => exact k.record prevDutyOf s

/-- Every operation that gives a next state. -/
theorem operation (k : KeptByUpdates R) {i : Instr} {s t : State} (h : exec i s = .next t) : R s t := by
  obtain ⟨-, -, ⟨-, rfl⟩ | ⟨-, rfl⟩⟩ := exec_next h
  · exact k.refl _
  · exact k.effect i s

end KeptByUpdates

/-- Two states with the same parameters and the same `HALTED`: what decides whether and how operations run. -/
def SameControl (s t : State) : Prop := t.cfg = s.cfg ∧ t.halted = s.halted

/-- No update writes the parameters or `HALTED` (R2, R19). -/
theorem sameControl_kept : KeptByUpdates SameControl where
  refl _ := ⟨rfl, rfl⟩
  trans h k := ⟨k.1.trans h.1, k.2.trans h.2⟩
  led _ _ _ := ⟨rfl, rfl⟩
  ccr n v s := ⟨ccrWrite_cfg n v s, ccrWrite_halted n v s⟩
  duty _ := ⟨rfl, rfl⟩
  turn _ := ⟨rfl, rfl⟩
  segment s := ⟨countSegment_cfg s, countSegment_halted s⟩
  subTick _ := ⟨rfl, rfl⟩
  raised _ _ := ⟨rfl, rfl⟩
  entered _ _ := ⟨rfl, rfl⟩
  record _ _ := ⟨rfl, rfl⟩
  timer s := ⟨timerAdvance_cfg s, timerAdvance_halted s⟩

/-- `t` comes after `s` by issuing commands: `OUT` has grown by them, and `LED` is what they make of it (R41). -/
def Issues (s t : State) : Prop := ∃ cs : List Command, t.out = s.out ++ cs ∧ t.led = applyCommands s.led cs

/-- Equal `OUT` and `LED`: no command issued. -/
theorem Issues.none {s t : State} (hout : t.out = s.out) (hled : t.led = s.led) : Issues s t :=
  ⟨[], hout.trans (List.append_nil _).symm, hled⟩

/-- Every update issues the commands that it logs (R34, R36, R41). -/
theorem issues_kept : KeptByUpdates Issues where
  refl _ := .none rfl rfl
  trans := by
    rintro s t u ⟨cs, hout, hled⟩ ⟨ds, hout', hled'⟩
    refine ⟨cs ++ ds, ?_, ?_⟩
    · rw [hout', hout, List.append_assoc]
    · rw [hled', hled, applyCommands_append]
  led i b s := ⟨[.led i b], rfl, ledWrite_led i b s⟩
  ccr n v s := ⟨[.ccr n v], ccrWrite_out n v s, ccrWrite_led n v s⟩
  duty _ := .none rfl rfl
  turn _ := .none rfl rfl
  segment s := .none (countSegment_out s) (countSegment_led s)
  subTick _ := .none rfl rfl
  raised _ _ := .none rfl rfl
  entered _ _ := .none rfl rfl
  record _ _ := .none rfl rfl
  timer s := .none (timerAdvance_out s) (timerAdvance_led s)

/-- Settles O31: every update of the state issues what it logs, and issuing composes. -/
theorem ledFollowsCommands : Obligations.LedFollowsCommands :=
  fun _ _ _ => issues_kept.operation

/-- Equal parameters: the ROM reads the same at every address (R31, R32). -/
theorem romRead_congr {s t : State} (h : t.cfg = s.cfg) (a : Byte) : romRead t a = romRead s a := by
  rw [romRead, romRead, h]

/-- A step leaves the parameters as they are, because the operation it performs does. -/
theorem step_cfg {s t : State} (h : step s = .next t) : t.cfg = s.cfg := by
  obtain ⟨-, rfl⟩ | ⟨c, rest, i, -, -, he⟩ := step_next h
  · rfl
  · exact (sameControl_kept.operation he).1

/-- Settles O12: the parameters stay, and the ROM is a parameter. -/
theorem tableIsImmutable : Obligations.TableIsImmutable := by
  refine ⟨fun i s t h => ?_, fun s t h => ?_, fun c ok => ⟨rfl, fun _ => rfl⟩⟩
  · have hcfg := (sameControl_kept.operation h).1
    exact ⟨hcfg, romRead_congr hcfg⟩
  · exact ⟨step_cfg h, romRead_congr (step_cfg h)⟩

/-- Settles O17: the fault is read off `HALTED`, which no operation writes. -/
theorem haltedWrittenAtResetOnly : Obligations.HaltedWrittenAtResetOnly := by
  refine ⟨fun i s t h => ?_, fun c => ⟨rfl, rfl⟩⟩
  have hhalted := (sameControl_kept.operation h).2
  exact ⟨hhalted, by rw [State.faultOf, State.faultOf, hhalted]⟩

/-- Settles O11: a next state comes from legal parameters only. -/
theorem illegalParametersStop : Obligations.IllegalParametersStop := by
  intro i s t illegal h
  obtain ⟨-, legal, -⟩ := exec_next h
  exact Bool.false_ne_true (illegal.symm.trans legal)

/-- `TICK` exists in `SW` (R47). -/
theorem isSw_eq {c : Config} (hv : c.variant = .sw) : isSw c = true := decide_eq_true hv

/-- `UPD`, `CC1`, `CC2` exist in the open environment of `HW` (R47). -/
theorem isHwOpened_eq {c : Config} (hv : c.variant = .hw) (he : c.env = .opened) : isHwOpened c = true := by
  simp [isHwOpened, hv, he]

/-- `CLK` exists in the closed environment of `HW` (R47). -/
theorem isHwClosed_eq {c : Config} (hv : c.variant = .hw) (he : c.env = .closed) : isHwClosed c = true := by
  simp [isHwClosed, hv, he]

/-- Settles O16: `exec_next` leaves a halted block one answer, and the build's own event gets it. -/
theorem haltedBlockIsFrozen : Obligations.HaltedBlockIsFrozen := by
  refine ⟨fun i s t halted h => ?_, fun s halted legal => ⟨fun hv => ?_, fun hv he => ?_⟩⟩
  · obtain ⟨-, -, ⟨-, same⟩ | ⟨running, -⟩⟩ := exec_next h
    · exact same
    · exact absurd (halted.symm.trans running) (by decide)
  · exact exec_halted (isSw_eq hv) legal halted
  · exact exec_halted (isHwClosed_eq hv he) legal halted

/-- No step faults: it idles, performs an operation, or refuses a word (R128). -/
theorem step_ne_fault (s : State) (r : Fault) : step s ≠ .fault r := by
  cases hin : s.input with
  | nil => simp [step_nil hin]
  | cons c rest =>
    cases hc : decode c with
    | ok i =>
      rw [step_decoded hin hc]
      exact exec_ne_fault i _ r
    | error e => simp [step_rejected hin hc]

/-- Settles O18: operations and steps never fault, and both LED commands exist in every build. -/
theorem nothingFaults : Obligations.NothingFaults :=
  ⟨exec_ne_fault, step_ne_fault, fun _ _ ready =>
    ⟨⟨_, exec_ready (i := .ledOn _) rfl ready⟩, ⟨_, exec_ready (i := .ledOff _) rfl ready⟩⟩⟩

/-- An event that a trace may hold is an operation that the build has (R47). -/
theorem offered_of_eventPresent {c : Config} {i : Instr} (h : eventPresent c i = true) : offered c i = true := by
  cases i
  case tick | upd | cc1 | cc2 | clk => exact h
  all_goals cases h

/-- Settles O7: halted or not, `perform` completes under legal parameters. -/
theorem presentEventsComplete : Obligations.PresentEventsComplete := by
  intro s i legal present
  have ho := offered_of_eventPresent present
  cases halted : s.halted with
  | true => exact ⟨s, exec_halted ho legal halted⟩
  | false => exact ⟨effectOf i s, exec_ready ho ⟨legal, halted⟩⟩

/-- Settles O6: none of the listed events is offered, environment by environment. -/
theorem foreignEventsRefused : Obligations.ForeignEventsRefused := by
  intro s
  refine ⟨fun hv i hi => ?_, fun hv he i hi => ?_, fun hv he i hi => ?_⟩
  all_goals
    simp only [List.mem_cons, List.not_mem_nil, or_false] at hi
  · rcases hi with rfl | rfl | rfl | rfl <;> exact exec_absent (by simp [offered, isHwOpened, isHwClosed, hv])
  · rcases hi with rfl | rfl | rfl | rfl <;> exact exec_absent (by simp [offered, isSw, isHwOpened, hv, he])
  · rcases hi with rfl | rfl <;> exact exec_absent (by simp [offered, isSw, isHwClosed, hv, he])

/-- Settles O30: a ready `HW` block performs the write, and `SW` does not have it. -/
theorem compareWriteSetsPreload : Obligations.CompareWriteSetsPreload := by
  refine ⟨fun s v ready hv => ?_, fun s n v hv => ?_⟩
  · exact ⟨exec_ready (i := .ccrWr .one v) (decide_eq_true hv) ready,
      exec_ready (i := .ccrWr .two v) (decide_eq_true hv) ready⟩
  · exact exec_absent (i := .ccrWr n v) (by simp [offered, hv])

end Sys2Proof.Machine

/-! Proofs of the statements about the parameters and the traces: 40_gamma_table.md, 70_reset_and_hazards.md and the
pseudo-instructions of 30_encoding.md. -/

namespace Sys2Proof

/-- `nonDecreasing` looks at neighbours. -/
theorem nonDecreasing_iff_isChain (g : List Byte) :
    nonDecreasing g = true ↔ g.IsChain (fun a b => a.toNat ≤ b.toNat) := by
  induction g with
  | nil => simp [nonDecreasing]
  | cons a t ih =>
    cases t with
    | nil => simp [nonDecreasing]
    | cons b t => simp [nonDecreasing, ih]

/-- The order of neighbours is the order of all entries (G-mono, R61). -/
theorem nonDecreasing_iff_getD {g : List Byte} (hlen : g.length = 256) :
    nonDecreasing g = true ↔ ∀ i j : Nat, i ≤ j → j ≤ 255 → (g.getD i 0).toNat ≤ (g.getD j 0).toNat := by
  have trans : IsTrans Byte fun a b => a.toNat ≤ b.toNat := ⟨fun _ _ _ => Nat.le_trans⟩
  rw [nonDecreasing_iff_isChain, List.isChain_iff_pairwise, List.pairwise_iff_getElem]
  constructor
  · intro ordered i j hij hj
    rw [List.getD_eq_getElem g 0 (by omega), List.getD_eq_getElem g 0 (by omega)]
    obtain rfl | hlt := Nat.eq_or_lt_of_le hij
    · exact Nat.le_refl _
    · exact ordered i j _ _ hlt
  · intro ordered i j hi hj hlt
    have h := ordered i j (Nat.le_of_lt hlt) (by omega)
    rwa [List.getD_eq_getElem g 0 hi, List.getD_eq_getElem g 0 hj] at h

/-- An entry that the list has. -/
theorem getD_eq_iff_getElem? {g : List Byte} {i : Nat} (h : i < g.length) (d b : Byte) :
    g.getD i d = b ↔ g[i]? = some b := by
  rw [List.getD_eq_getElem g d h, List.getElem?_eq_getElem h, Option.some_inj]

/-- The form of a table and its three properties (R61). -/
theorem gammaAdmissible_iff (g : List Byte) :
    gammaAdmissible g = true ↔
      g.length = 256 ∧ (∀ i j : Nat, i ≤ j → j ≤ 255 → (g.getD i 0).toNat ≤ (g.getD j 0).toNat) ∧
        g[0]? = some 0 ∧ g[255]? = some 255 := by
  simp only [gammaAdmissible, Bool.and_eq_true, decide_eq_true_eq, and_assoc]
  refine and_congr_right fun hlen => ?_
  rw [nonDecreasing_iff_getD hlen, getD_eq_iff_getElem? (by omega), getD_eq_iff_getElem? (by omega)]

/-- `F` is at least 1, and in `HW` so is `P` (R149); the upper limits are the widths. -/
theorem Config.legal_iff (c : Config) : c.legal = true ↔ 1 ≤ c.F ∧ (c.variant = .hw → 1 ≤ c.P) := by
  cases hv : c.variant <;> simp [Config.legal, hv]

/-- Legal parameters have an `F`. -/
theorem Config.one_le_F {c : Config} (h : c.legal = true) : 1 ≤ c.F := (c.legal_iff.mp h).1

/-- Legal parameters of `HW` have a `P`. -/
theorem Config.one_le_P {c : Config} (h : c.legal = true) (hv : c.variant = .hw) : 1 ≤ c.P := (c.legal_iff.mp h).2 hv

/-- `F` is 32 bits wide (R5). -/
theorem Config.F_lt (c : Config) : c.F < 2 ^ 32 := c.fade.isLt

/-- `P` is 16 bits wide (R5). -/
theorem Config.P_lt (c : Config) : c.P < 2 ^ 16 := c.period.isLt

/-- Settles O10: the two acceptance tests read as the spec's limits. -/
theorem legalParametersExactly : Obligations.LegalParametersExactly := by
  refine ⟨gammaAdmissible_iff, fun c => ?_⟩
  have hF := c.F_lt
  have hP := c.P_lt
  rw [c.legal_iff]
  constructor
  · rintro ⟨oneF, oneP⟩
    exact ⟨⟨oneF, by omega⟩, fun hv => ⟨oneP hv, by omega⟩⟩
  · rintro ⟨⟨oneF, -⟩, oneP⟩
    exact ⟨oneF, fun hv => (oneP hv).1⟩

/-- G-zero (R61). -/
theorem Config.gammaAt_zero (c : Config) : c.gammaAt 0 = 0 := by
  obtain ⟨-, -, first, -⟩ := (gammaAdmissible_iff _).mp c.gamma.admissible
  simp [Config.gammaAt, first]

/-- G-full (R61). -/
theorem Config.gammaAt_full (c : Config) : c.gammaAt 255 = 255 := by
  obtain ⟨-, -, -, last⟩ := (gammaAdmissible_iff _).mp c.gamma.admissible
  simp [Config.gammaAt, last]

/-- G-mono (R61). -/
theorem Config.gammaAt_mono (c : Config) {a b : Byte} (h : a.toNat ≤ b.toNat) :
    (c.gammaAt a).toNat ≤ (c.gammaAt b).toNat := by
  obtain ⟨-, mono, -, -⟩ := (gammaAdmissible_iff _).mp c.gamma.admissible
  exact mono _ _ h (Nat.le_of_lt_succ b.isLt)

end Sys2Proof

namespace Sys2Proof.Machine

/-- `RING` is eight times `SEGMENT` (R56). -/
theorem ringEvents_replicate {c : Config} {n : Nat} {e : Event} (h : segmentEvents c = some (List.replicate n e)) :
    ringEvents c = some (List.replicate (8 * n) e) := by
  simp only [ringEvents, h, List.flatten_replicate_replicate]

/-- Settles O9: each pseudo-instruction is read off the build and the environment. -/
theorem pseudoInstructionsExpand : Obligations.PseudoInstructionsExpand := by
  refine ⟨fun c hv => ?_, fun c hv he => ?_, fun c hv he => ?_⟩
  · have segment : segmentEvents c = some (List.replicate c.F .tick) := by
      simp only [segmentEvents, hv, repeatEvent]
    exact ⟨by simp only [itemEvents, periodEvents, hv, repeatEvent], segment, ringEvents_replicate segment⟩
  · have segment : segmentEvents c = some (List.replicate (c.F * c.P) .clk) := by
      simp only [segmentEvents, hv, he, repeatEvent]
    exact ⟨by simp only [itemEvents, periodEvents, hv, he, repeatEvent], segment, ringEvents_replicate segment⟩
  · have segment : segmentEvents c = none := by
      simp only [segmentEvents, hv, he]
    exact ⟨by simp only [itemEvents, periodEvents, hv, he], segment, by simp only [itemEvents, ringEvents, segment]⟩

/-- An event byte that a trace of the build may hold (R47, R53). -/
def Admitted (c : Config) (b : Byte) : Prop := ∃ i, decode (.eb b) = .ok i ∧ eventPresent c i = true

/-- An admitted byte is taken as it is. -/
theorem admitByte_admitted {c : Config} {b : Byte} (h : Admitted c b) : admitByte c b = .ok (.eb b) := by
  obtain ⟨i, hi, present⟩ := h
  have event : decodeEvent b = .ok i := hi
  simp only [admitByte, event, present, if_true]

/-- What is taken is an admitted byte. -/
theorem admitByte_ok {c : Config} {b : Byte} {w : Code} (h : admitByte c b = .ok w) : Admitted c b ∧ w = .eb b := by
  unfold admitByte at h
  split at h
  case h_1 => cases h
  case h_2 i hi =>
    split at h
    case isTrue present => exact ⟨⟨i, hi, present⟩, (Except.ok.inj h).symm⟩
    case isFalse => cases h

/-- Admitted bytes are taken as they are. -/
theorem admitBytes_admitted {c : Config} {bs : List Byte} (h : ∀ b ∈ bs, Admitted c b) :
    admitBytes c bs = .ok (bs.map .eb) := by
  induction bs with
  | nil => rfl
  | cons b bs ih =>
    obtain ⟨hb, hbs⟩ := List.forall_mem_cons.mp h
    simp only [admitBytes, admitByte_admitted hb, ih hbs, List.map_cons]

/-- Bytes that are taken are all admitted. -/
theorem admitBytes_ok {c : Config} {bs : List Byte} {ws : List Code} (h : admitBytes c bs = .ok ws) :
    ∀ b ∈ bs, Admitted c b := by
  induction bs generalizing ws with
  | nil => simp
  | cons b bs ih =>
    unfold admitBytes at h
    split at h
    case h_1 => cases h
    case h_2 hb =>
      split at h
      case h_1 => cases h
      case h_2 hbs => exact List.forall_mem_cons.mpr ⟨(admitByte_ok hb).1, ih hbs⟩

/-- A trace of legal parameters and admitted bytes starts with these bytes at the input of the reset state (R161). -/
theorem startTrace_admitted {c : Config} {bs : List Byte} (ok : Bool) (legal : c.legal = true)
    (h : ∀ b ∈ bs, Admitted c b) : startTrace c ok bs = .next { State.resetOf c ok with input := bs.map .eb } := by
  simp only [startTrace, legal, if_true, admitBytes_admitted h]

/-- A trace that starts has legal parameters and admitted bytes (R149, R53). -/
theorem startTrace_next {c : Config} {ok : Bool} {bs : List Byte} {s : State} (h : startTrace c ok bs = .next s) :
    c.legal = true ∧ ∀ b ∈ bs, Admitted c b := by
  unfold startTrace at h
  split at h
  case isFalse => cases h
  case isTrue legal =>
    split at h
    case h_1 => cases h
    case h_2 hbs => exact ⟨legal, admitBytes_ok hbs⟩

/-- Settles O8: legal parameters and admitted bytes start a trace, and nothing else does. -/
theorem tracesThatStart : Obligations.TracesThatStart := by
  intro c ok bs s
  constructor
  · intro h
    obtain ⟨legal, admitted⟩ := startTrace_next h
    exact ⟨legal, admitted, Host.Outcome.next.inj (h.symm.trans (startTrace_admitted ok legal admitted))⟩
  · rintro ⟨legal, admitted, rfl⟩
    exact startTrace_admitted ok legal admitted

/-- Settles O13: the reset state, field by field. -/
theorem resetRegisters : Obligations.ResetRegisters :=
  ⟨fun _ _ => ⟨rfl, rfl, rfl, rfl, rfl, rfl, rfl, rfl, rfl, rfl, rfl, rfl, rfl, rfl⟩, rfl⟩

/-- Settles O19: a ready block performs `LOOKUP`, and the corner entries are those of every admissible table. -/
theorem lookupGivesEntry : Obligations.LookupGivesEntry := by
  refine ⟨fun s x ready => exec_ready (i := .lookup x) rfl ready, fun c => ⟨c.gammaAt_zero, c.gammaAt_full⟩,
    fun c hc => ?_⟩
  rw [Config.gammaAt, hc]
  rfl

end Sys2Proof.Machine

/-! Proofs of the statements of 41_active_led_state.md about rounding and duties, and of the thresholds of
43_compare_scheduler_hw.md. -/

namespace Sys2Proof.Machine

open Sys2Proof.Claims

/-- Half-up rounding of a numerator of R67 is at most 255, so it fits a byte. -/
theorem roundQuotient_lt {F n : Nat} (hF : 1 ≤ F) (hn : n ≤ 255 * F) : (2 * n + F) / (2 * F) < 256 :=
  (Nat.div_lt_iff_lt_mul (by omega)).mpr (by omega)

/-- `ROUND` of a numerator of R67, as a number: nothing is lost in the byte. -/
theorem roundLinear_toNat {s : State} {n : Nat} (hF : 1 ≤ s.cfg.F) (hn : n ≤ 255 * s.cfg.F) :
    (roundLinear s n).toNat = (2 * n + s.cfg.F) / (2 * s.cfg.F) := by
  rw [roundLinear_inside hn, BitVec.toNat_ofNat, Nat.mod_eq_of_lt (roundQuotient_lt hF hn)]

/-- Settles O20: the quotient is the largest `r` with `2*F*r` at most `2n + F`. -/
theorem roundGivesNearest : Obligations.RoundGivesNearest := by
  intro s n ready
  have completes : exec (.round n) s = .next { s with ret := some (roundLinear s n.toNat) } :=
    exec_ready (i := .round n) rfl ready
  refine ⟨fun hn => ⟨_, completes, ?_⟩, fun _ => ⟨_, completes⟩⟩
  have hF := Config.one_le_F ready.legal
  rw [roundLinear_toNat hF hn]
  exact ⟨Nat.mul_div_le _ _, Nat.lt_mul_div_succ _ (by omega)⟩

/-- The two rounded duties, as quotients: `2n + F` and its complement add up to `256 * 2F`. -/
theorem roundQuotients_add {F n : Nat} (hF : 1 ≤ F) (hn : n ≤ 255 * F) :
    (2 * n + F) / (2 * F) + (2 * (255 * F - n) + F) / (2 * F) = if (2 * n + F) % (2 * F) = 0 then 256 else 255 := by
  have hD : 0 < 2 * F := by omega
  have hq := roundQuotient_lt hF hn
  have split := Nat.div_add_mod (2 * n + F) (2 * F)
  have rest := Nat.mod_lt (2 * n + F) hD
  generalize (2 * n + F) / (2 * F) = q at hq split ⊢
  generalize (2 * n + F) % (2 * F) = r at split rest ⊢
  obtain ⟨p, hp⟩ : ∃ p, q + p = 255 := ⟨255 - q, by omega⟩
  have whole : 2 * F * q + 2 * F * p = 2 * F * 255 := by rw [← Nat.mul_add, hp]
  by_cases tie : r = 0
  · have other : 2 * (255 * F - n) + F = 2 * F * (p + 1) := by
      rw [Nat.mul_add]
      omega
    rw [other, Nat.mul_div_cancel_left _ hD, if_pos tie]
    omega
  · have other : 2 * (255 * F - n) + F = 2 * F * p + (2 * F - r) := by omega
    rw [other, Nat.mul_add_div hD, Nat.div_eq_of_lt (by omega), if_neg tie]
    omega

/-- The complement of a numerator of R67 is no negative number. -/
theorem complement_natCast {F n : Nat} (hn : n ≤ 255 * F) : (255 * F - n : Int) = ((255 * F - n : Nat) : Int) := by
  omega

/-- Settles O21: both roundings are quotients by `2F`, of complementary numerators. -/
theorem roundedDutiesAddUp : Obligations.RoundedDutiesAddUp := by
  intro s n hF hn
  rw [complement_natCast hn, roundLinear_toNat hF hn, roundLinear_toNat hF (Nat.sub_le _ _)]
  exact roundQuotients_add hF hn

/-- The duty step in numbers (R66, decisions D3 and D4). -/
theorem stepDuty_acc_eq (s : State) :
    (stepDuty s).acc.toNat = min (s.acc.toNat + (if s.cfg.variant = .sw then 65280 else 255)) (255 * s.cfg.F) := by
  rw [stepDuty_acc_toNat, Config.accMax, Config.stepNumerator]
  cases s.cfg.variant <;> rfl

/-- The duty step does not go down within the range of `ACC`, and stays in it (R66). -/
theorem stepDuty_acc_between {s : State} (inRange : s.acc.toNat ≤ 255 * s.cfg.F) :
    s.acc.toNat ≤ (stepDuty s).acc.toNat ∧ (stepDuty s).acc.toNat ≤ 255 * s.cfg.F := by
  rw [stepDuty_acc_toNat]
  exact ⟨le_min (Nat.le_add_right _ _) inRange, min_le_right _ _⟩

/-- Settles O22: the sum is clamped at the top of the range, so within it nothing goes down. -/
theorem stepDutySaturates : Obligations.StepDutySaturates := by
  intro s ready
  exact ⟨stepDuty s, exec_ready (i := .stepDuty) rfl ready, rfl, stepDuty_acc_eq s,
    fun inRange => (stepDuty_acc_between inRange).1⟩

/-- The table at a rounded numerator is the statements' duty (R67, R68, R71). -/
theorem romRead_roundLinear (s : State) (n : Int) : romRead s (roundLinear s n) = dutyAt s.cfg n := by
  have range : (s.cfg.accMax : Int) = 255 * s.cfg.F := by simp [Config.accMax]
  simp only [romRead, roundLinear, dutyAt, range]

/-- The active light's duty (R68). -/
theorem dutyOf_eq (s : State) : dutyOf s = dutyAt s.cfg s.acc.toNat := romRead_roundLinear s _

/-- The previous light's duty (R71). -/
theorem prevDutyOf_eq (s : State) : prevDutyOf s = dutyAt s.cfg (255 * s.cfg.F - s.acc.toNat) := by
  have complement : prevNumerator s = 255 * s.cfg.F - s.acc.toNat := by
    have sum := acc_add_prevNumerator s
    omega
  rw [prevDutyOf, complement, romRead_roundLinear]

/-- The duty of a numerator in the range of R67. -/
theorem dutyAt_inside {c : Config} {n : Nat} (hn : n ≤ 255 * c.F) :
    dutyAt c n = c.gammaAt (BitVec.ofNat 8 ((2 * n + c.F) / (2 * c.F))) := by
  have inside : (0 : Int) ≤ n ∧ (n : Int) ≤ 255 * c.F := by omega
  rw [dutyAt, if_pos inside, Int.toNat_natCast]

/-- Linear duty 0 is perceptual duty 0. -/
theorem dutyAt_zero {c : Config} (hF : 1 ≤ c.F) : dutyAt c 0 = 0 := by
  have quotient : (2 * 0 + c.F) / (2 * c.F) = 0 := Nat.div_eq_of_lt (by omega)
  have h := dutyAt_inside (c := c) (n := 0) (Nat.zero_le _)
  rw [quotient] at h
  exact h.trans c.gammaAt_zero

/-- Linear duty 255 is perceptual duty 255. -/
theorem dutyAt_full {c : Config} (hF : 1 ≤ c.F) : dutyAt c (255 * c.F) = 255 := by
  have quotient : (2 * (255 * c.F) + c.F) / (2 * c.F) = 255 :=
    Nat.div_eq_of_lt_le (by omega) (by omega)
  have h := dutyAt_inside (c := c) (n := 255 * c.F) (Nat.le_refl _)
  rw [quotient] at h
  exact_mod_cast h.trans c.gammaAt_full

/-- A larger linear duty has no smaller perceptual duty (R64). -/
theorem dutyAt_mono {c : Config} {n m : Nat} (hF : 1 ≤ c.F) (hnm : n ≤ m) (hm : m ≤ 255 * c.F) :
    (dutyAt c n).toNat ≤ (dutyAt c m).toNat := by
  have hn := Nat.le_trans hnm hm
  rw [dutyAt_inside hn, dutyAt_inside hm]
  refine c.gammaAt_mono ?_
  rw [BitVec.toNat_ofNat, BitVec.toNat_ofNat, Nat.mod_eq_of_lt (roundQuotient_lt hF hn),
    Nat.mod_eq_of_lt (roundQuotient_lt hF hm)]
  exact Nat.div_le_div_right (by omega)

/-- Settles O23: a ready block performs both, and the ends of the range are the ends of the table. -/
theorem dutiesGiveTableValues : Obligations.DutiesGiveTableValues := by
  intro s ready
  have hF := Config.one_le_F ready.legal
  have zero := dutyAt_zero hF
  have full := dutyAt_full hF
  have duty : exec .duty s = .next { s with ret := some (dutyOf s) } := exec_ready (i := .duty) rfl ready
  have prevDuty : exec .prevDuty s = .next { s with ret := some (prevDutyOf s) } :=
    exec_ready (i := .prevDuty) rfl ready
  refine ⟨dutyOf_eq s ▸ duty, prevDutyOf_eq s ▸ prevDuty, fun hacc => ?_, fun hacc => ?_⟩
  · simpa [hacc] using ⟨zero, full⟩
  · simpa [hacc] using ⟨full, zero⟩

/-- Settles O24: the duty step moves both linear duties one way, and the table keeps their order. -/
theorem dutiesAreMonotone : Obligations.DutiesAreMonotone := by
  intro s legal inRange
  have hF := Config.one_le_F legal
  obtain ⟨up, top⟩ := stepDuty_acc_between inRange
  rw [dutyOf_eq, dutyOf_eq, prevDutyOf_eq, prevDutyOf_eq, stepDuty_cfg, complement_natCast top,
    complement_natCast inRange]
  exact ⟨dutyAt_mono hF up top, dutyAt_mono hF (by omega) (Nat.sub_le _ _)⟩

/-- Settles O26: a ready block performs `PREV_INDEX`, and three bits fit the record. -/
theorem prevIndexIsGiven : Obligations.PrevIndexIsGiven := by
  intro s ready
  have value : (prevIndexOf s).setWidth 8 = BitVec.ofNat 8 ((s.idx.toNat + 7) % 8) := by
    rw [prevIndexOf_eq_prevOf, prevOf]
    bv_omega
  have completes : exec .prevIndex s = .next { s with ret := some ((prevIndexOf s).setWidth 8) } :=
    exec_ready (i := .prevIndex) rfl ready
  rw [completes, value]

/-- A perceptual duty's share of the period is within the period (R98). -/
theorem thresholdQuotient_le (d : Byte) (P : Nat) : d.toNat * P / 255 ≤ P :=
  Nat.div_le_of_le_mul (Nat.mul_le_mul_right P (Nat.le_of_lt_succ d.isLt))

/-- A threshold as a number (R98): nothing is lost in 16 bits. -/
theorem threshold_toNat (s : State) (d : Byte) : (threshold s d).toNat = d.toNat * s.cfg.P / 255 := by
  rw [threshold, BitVec.toNat_ofNat, Nat.mod_eq_of_lt (Nat.lt_of_le_of_lt (thresholdQuotient_le d _) s.cfg.P_lt)]

/-- A threshold is within the period (R36, R98). -/
theorem threshold_le (s : State) (d : Byte) : (threshold s d).toNat ≤ s.cfg.P := by
  rw [threshold_toNat]
  exact thresholdQuotient_le d _

/-- Below duty 255 the share of the period is not the whole of it. -/
theorem thresholdQuotient_lt {d : Byte} {P : Nat} (hP : 1 ≤ P) (hd : d ≠ 255) : d.toNat * P / 255 < P := by
  have below : d.toNat ≤ 254 := by bv_omega
  have share := Nat.mul_le_mul_right P below
  exact Nat.div_lt_of_lt_mul (by omega)

/-- Settles O37: the threshold is the floor of `d * P / 255`, whose two end values are exact. -/
theorem thresholdsWithinPeriod : Obligations.ThresholdsWithinPeriod := by
  intro s d hP
  refine ⟨threshold_le s d, ⟨fun h => ?_, ?_⟩, ?_⟩
  · by_contra hd
    have below := thresholdQuotient_lt hP hd
    rw [← threshold_toNat s d] at below
    omega
  · rintro rfl
    rw [threshold_toNat]
    exact Nat.mul_div_cancel_left _ (by decide)
  · rw [← BitVec.toNat_inj, threshold_toNat]
    exact Nat.div_eq_zero_iff_lt (by decide)

end Sys2Proof.Machine

/-! Proofs of the statements of 60_exceptions.md about `PEND` and the dispatcher. -/

namespace Sys2Proof.Machine

/-- The position of a source's bit in `PEND` (R121). -/
def sourceBit : Source → Nat
  | .tick => 0
  | .upd => 1
  | .cc1 => 2
  | .cc2 => 3

/-- The mask of a source, in bits. -/
theorem pendBit_bit (e : Source) (k : BitVec 2) : (pendBit e).getLsbD k.toNat = decide (k.toNat = sourceBit e) := by
  revert k
  cases e <;> decide

/-- Raising sets the source's own bit (R123). -/
theorem raiseEvent_bit (e : Source) (s : State) (k : BitVec 2) :
    (raiseEvent e s).pend.getLsbD k.toNat = if k.toNat = sourceBit e then true else s.pend.getLsbD k.toNat := by
  rw [raiseEvent_pend, BitVec.getLsbD_or, pendBit_bit]
  by_cases own : k.toNat = sourceBit e <;> simp [own]

/-- Entering clears the source's own bit (R126). -/
theorem enterHandler_bit (e : Source) (s : State) (k : BitVec 2) :
    (enterHandler e s).pend.getLsbD k.toNat = if k.toNat = sourceBit e then false else s.pend.getLsbD k.toNat := by
  have inside : k.toNat < 4 := k.isLt
  rw [enterHandler_pend, BitVec.getLsbD_and, BitVec.getLsbD_not, pendBit_bit]
  by_cases own : k.toNat = sourceBit e <;> simp [own, inside]

/-- Settles O48: both are updates of `PEND` alone, by the source's mask. -/
theorem handlerEntryClearsItsBit : Obligations.HandlerEntryClearsItsBit := by
  intro s e
  refine ⟨rfl, rfl, fun k => ?_⟩
  cases e <;> exact ⟨raiseEvent_bit _ s k, enterHandler_bit _ s k⟩

/-- A source is pending when its bit is set. -/
theorem isPending_eq (e : Source) (s : State) : isPending e s = s.pend.getLsbD (sourceBit e) := by
  unfold isPending
  generalize s.pend = p
  revert p
  cases e <;> decide

/-- Settles O47: the dispatcher's tests, read as bits. -/
theorem dispatchFollowsPriority : Obligations.DispatchFollowsPriority := by
  intro s
  refine ⟨fun halted => ?_, fun running hv => ?_, fun running hv => ?_⟩
  · simp only [nextSource, halted, if_true]
  · simp only [nextSource, running, hv, isPending_eq, sourceBit, Bool.false_eq_true, if_false]
  · simp only [nextSource, running, hv, isPending_eq, sourceBit, Bool.false_eq_true, if_false]

/-- The source that is taken is pending (R124). -/
theorem isPending_of_nextSource {s : State} {e : Source} (h : nextSource s = some e) : isPending e s = true := by
  unfold nextSource at h
  repeat' split at h
  all_goals cases h <;> assumption

/-- How many events are pending. -/
def pendCount (p : BitVec 4) : Nat :=
  (p.getLsbD 0).toNat + (p.getLsbD 1).toNat + (p.getLsbD 2).toNat + (p.getLsbD 3).toNat

/-- Entering a pending source's handler leaves fewer events pending (R126). -/
theorem pendCount_clear {p : BitVec 4} {e : Source} (h : (p &&& pendBit e != 0) = true) :
    pendCount (p &&& ~~~pendBit e) < pendCount p := by
  revert p
  cases e <;> decide

/-- With no event pending none is taken. -/
theorem nextSource_of_pendCount {s : State} (h : pendCount s.pend = 0) : nextSource s = none := by
  have empty : s.pend = 0 := by
    revert h
    generalize s.pend = p
    revert p
    decide
  cases he : nextSource s with
  | none => rfl
  | some e =>
    have taken := isPending_of_nextSource he
    simp [isPending, empty] at taken

/-- The dispatcher with fuel for every pending event ends with none to take: each round has one event fewer. -/
theorem nextSource_dispatchAll (n : Nat) (s : State) (h : pendCount s.pend ≤ n) :
    nextSource (dispatchAll handlerOf n s) = none := by
  induction n generalizing s with
  | zero => exact nextSource_of_pendCount (Nat.le_zero.mp h)
  | succ n ih =>
    cases he : nextSource s with
    | none => rwa [dispatchAll_none _ _ he]
    | some e =>
      have kept := (handlerOf_control e (enterHandler e s)).1
      have fewer := pendCount_clear (isPending_of_nextSource he)
      rw [dispatchAll_some _ _ he]
      refine ih _ ?_
      rw [kept, enterHandler_pend]
      omega

/-- Settles O49: `PEND` has four bits, so the fuel of `runPending` is enough. -/
theorem dispatcherRunsToEmpty : Obligations.DispatcherRunsToEmpty := by
  intro s
  have four (p : BitVec 4) : pendCount p ≤ 4 := by
    revert p
    decide
  exact nextSource_dispatchAll 4 s (four _)

end Sys2Proof.Machine

/-! What the handlers do, each as one equation: which registers move, and which commands are issued. The commands of a
handler are gathered in one list, because no register but `LED` and `OUT` depends on them. -/

namespace Sys2Proof.Machine

open Sys2Proof.Claims

/-- Commands issued in order: `OUT` grows by them, and `LED` follows (R41). -/
def issue (cs : List Command) (s : State) : State :=
  { s with led := applyCommands s.led cs, out := s.out ++ cs }

@[simp] theorem issue_cfg (cs : List Command) (s : State) : (issue cs s).cfg = s.cfg := rfl
@[simp] theorem issue_idx (cs : List Command) (s : State) : (issue cs s).idx = s.idx := rfl
@[simp] theorem issue_acc (cs : List Command) (s : State) : (issue cs s).acc = s.acc := rfl
@[simp] theorem issue_seg (cs : List Command) (s : State) : (issue cs s).seg = s.seg := rfl
@[simp] theorem issue_tickcnt (cs : List Command) (s : State) : (issue cs s).tickcnt = s.tickcnt := rfl
@[simp] theorem issue_cnt (cs : List Command) (s : State) : (issue cs s).cnt = s.cnt := rfl
@[simp] theorem issue_ccr1Pre (cs : List Command) (s : State) : (issue cs s).ccr1Pre = s.ccr1Pre := rfl
@[simp] theorem issue_ccr2Pre (cs : List Command) (s : State) : (issue cs s).ccr2Pre = s.ccr2Pre := rfl
@[simp] theorem issue_ccr1Act (cs : List Command) (s : State) : (issue cs s).ccr1Act = s.ccr1Act := rfl
@[simp] theorem issue_ccr2Act (cs : List Command) (s : State) : (issue cs s).ccr2Act = s.ccr2Act := rfl
@[simp] theorem issue_led (cs : List Command) (s : State) : (issue cs s).led = applyCommands s.led cs := rfl
@[simp] theorem issue_halted (cs : List Command) (s : State) : (issue cs s).halted = s.halted := rfl
@[simp] theorem issue_pend (cs : List Command) (s : State) : (issue cs s).pend = s.pend := rfl
@[simp] theorem issue_out (cs : List Command) (s : State) : (issue cs s).out = s.out ++ cs := rfl
@[simp] theorem issue_ret (cs : List Command) (s : State) : (issue cs s).ret = s.ret := rfl
@[simp] theorem issue_input (cs : List Command) (s : State) : (issue cs s).input = s.input := rfl

/-- No command, no change. -/
theorem issue_nil (s : State) : issue [] s = s := by
  simp [issue, applyCommands]

/-- Commands issued after others. -/
theorem issue_issue (cs ds : List Command) (s : State) : issue ds (issue cs s) = issue (cs ++ ds) s := by
  simp [issue, applyCommands_append]

/-- `LedWrite` issues its command (R34). -/
theorem ledWrite_eq_issue (i : BitVec 3) (b : Bool) (s : State) : ledWrite i b s = issue [.led i b] s := by
  cases b <;> rfl

/-- `LedWrite` under a condition. -/
theorem ite_ledWrite (p : Prop) [Decidable p] (i : BitVec 3) (b : Bool) (s : State) :
    (if p then ledWrite i b s else s) = issue (issueIf p (.led i b)) s := by
  unfold issueIf
  split
  · exact ledWrite_eq_issue i b s
  · exact (issue_nil s).symm

/-- A command under equivalent conditions. -/
theorem issueIf_congr {p q : Prop} [Decidable p] [Decidable q] (h : p ↔ q) (k : Command) :
    issueIf p k = issueIf q k := by
  simp only [issueIf, h]

/-- The bit of light `j` after a command to light `i` under a condition. -/
theorem issueIf_bit (p : Prop) [Decidable p] (i j : BitVec 3) (b : Bool) (s : State) :
    (issue (issueIf p (.led i b)) s).led.getLsbD j.toNat = if p ∧ j = i then b else s.led.getLsbD j.toNat := by
  by_cases hp : p
  · simp only [issueIf, hp, if_true, ← ledWrite_eq_issue, ledWrite_bit, true_and]
  · simp only [issueIf, hp, if_false, issue_nil, false_and]

/-- The duties do not read `LED` or `OUT`. -/
theorem dutyOf_issue (cs : List Command) (s : State) : dutyOf (issue cs s) = dutyOf s := rfl
theorem prevDutyOf_issue (cs : List Command) (s : State) : prevDutyOf (issue cs s) = prevDutyOf s := rfl

/-- Nor does the cycle counter's step. -/
theorem countSegment_issue (cs : List Command) (s : State) :
    countSegment (issue cs s) = issue cs (countSegment s) := by
  by_cases h : s.seg + 1 = s.cfg.fade
  · rw [countSegment_end s h]; exact countSegment_end _ h
  · rw [countSegment_inside s h]; exact countSegment_inside _ h

/-! ### `TICK` -/

/-- The duty step of S2, made at a period start only (R83). -/
def dutyPhase (s : State) : State := if s.tickcnt = 0 then stepDuty s else s

/-- The commands of a `TICK` at the sub-tick `t`, with the duties `d` and `p` of the light `i` and of the one before it
(S2b, S2c, S3, S4; R83, R84, R85). -/
def tickCommands (t d p : Byte) (i : BitVec 3) : List Command :=
  issueIf (t = 0 ∧ d ≠ 0) (.led i true) ++
    (issueIf (t = 0 ∧ p ≠ 0) (.led (prevOf i) true) ++
      (issueIf (t = d) (.led i false) ++ issueIf (t = p) (.led (prevOf i) false)))

/-- S2b as a command. -/
theorem tickActiveOn_eq (s : State) : tickActiveOn s = issue (issueIf (dutyOf s ≠ 0) (.led s.idx true)) s :=
  ite_ledWrite _ _ _ s

/-- S2c as a command. -/
theorem tickPrevOn_eq (s : State) :
    tickPrevOn s = issue (issueIf (prevDutyOf s ≠ 0) (.led (prevOf s.idx) true)) s := by
  rw [← prevIndexOf_eq_prevOf]
  exact ite_ledWrite _ _ _ s

/-- S3 as a command. -/
theorem tickActiveOff_eq (t : BitVec 8) (s : State) :
    tickActiveOff t s = issue (issueIf (t = dutyOf s) (.led s.idx false)) s :=
  ite_ledWrite _ _ _ s

/-- S4 as a command. -/
theorem tickPrevOff_eq (t : BitVec 8) (s : State) :
    tickPrevOff t s = issue (issueIf (t = prevDutyOf s) (.led (prevOf s.idx) false)) s := by
  rw [← prevIndexOf_eq_prevOf]
  exact ite_ledWrite _ _ _ s

/-- S1 to S4 of the `TICK` handler: the duty step, then commands by the duties after it. -/
theorem tickSignals_eq (s : State) :
    tickPrevOff s.tickcnt (tickActiveOff s.tickcnt (tickPeriodStart s.tickcnt s)) =
      issue (tickCommands s.tickcnt (dutyOf (dutyPhase s)) (prevDutyOf (dutyPhase s)) s.idx) (dutyPhase s) := by
  simp only [tickPrevOff_eq, tickActiveOff_eq, tickPeriodStart, dutyPhase, tickCommands]
  by_cases start : s.tickcnt = 0
  · have on (q : Prop) [Decidable q] (k : Command) : issueIf (s.tickcnt = 0 ∧ q) k = issueIf q k :=
      issueIf_congr (and_iff_right start) k
    simp only [on, if_pos start, tickPrevOn_eq, tickActiveOn_eq, issue_issue, dutyOf_issue, prevDutyOf_issue, issue_idx,
      stepDuty_idx, List.append_assoc]
    rfl
  · have none (q : Prop) [Decidable q] (k : Command) : issueIf (s.tickcnt = 0 ∧ q) k = [] :=
      if_neg (fun h => start h.1)
    simp only [none, if_neg start, issue_issue, prevDutyOf_issue, issue_idx, List.nil_append]

/-- The `TICK` handler: the duty step, the counters, and its commands (R81). -/
theorem onTick_eq (s : State) :
    onTick s = issue (tickCommands s.tickcnt (dutyOf (dutyPhase s)) (prevDutyOf (dutyPhase s)) s.idx)
      (tickCount (countSegment (dutyPhase s))) := by
  have signals := congrArg (fun t => tickCount (countSegment t)) (tickSignals_eq s)
  rw [countSegment_issue] at signals
  exact signals

@[simp] theorem dutyPhase_cfg (s : State) : (dutyPhase s).cfg = s.cfg := by unfold dutyPhase; split <;> rfl
@[simp] theorem dutyPhase_idx (s : State) : (dutyPhase s).idx = s.idx := by unfold dutyPhase; split <;> rfl
@[simp] theorem dutyPhase_seg (s : State) : (dutyPhase s).seg = s.seg := by unfold dutyPhase; split <;> rfl
@[simp] theorem dutyPhase_tickcnt (s : State) : (dutyPhase s).tickcnt = s.tickcnt := by unfold dutyPhase; split <;> rfl
@[simp] theorem dutyPhase_cnt (s : State) : (dutyPhase s).cnt = s.cnt := by unfold dutyPhase; split <;> rfl
@[simp] theorem dutyPhase_ccr1Pre (s : State) : (dutyPhase s).ccr1Pre = s.ccr1Pre := by unfold dutyPhase; split <;> rfl
@[simp] theorem dutyPhase_ccr2Pre (s : State) : (dutyPhase s).ccr2Pre = s.ccr2Pre := by unfold dutyPhase; split <;> rfl
@[simp] theorem dutyPhase_ccr1Act (s : State) : (dutyPhase s).ccr1Act = s.ccr1Act := by unfold dutyPhase; split <;> rfl
@[simp] theorem dutyPhase_ccr2Act (s : State) : (dutyPhase s).ccr2Act = s.ccr2Act := by unfold dutyPhase; split <;> rfl
@[simp] theorem dutyPhase_led (s : State) : (dutyPhase s).led = s.led := by unfold dutyPhase; split <;> rfl
@[simp] theorem dutyPhase_halted (s : State) : (dutyPhase s).halted = s.halted := by unfold dutyPhase; split <;> rfl
@[simp] theorem dutyPhase_pend (s : State) : (dutyPhase s).pend = s.pend := by unfold dutyPhase; split <;> rfl
@[simp] theorem dutyPhase_out (s : State) : (dutyPhase s).out = s.out := by unfold dutyPhase; split <;> rfl
@[simp] theorem dutyPhase_ret (s : State) : (dutyPhase s).ret = s.ret := by unfold dutyPhase; split <;> rfl
@[simp] theorem dutyPhase_input (s : State) : (dutyPhase s).input = s.input := by unfold dutyPhase; split <;> rfl

/-- The numerator after the duty step of an `SW` build (R66, R83). -/
theorem dutyPhase_acc {s : State} (hv : s.cfg.variant = .sw) :
    (dutyPhase s).acc.toNat =
      if s.tickcnt = 0 then min (s.acc.toNat + 65280) (255 * s.cfg.F) else s.acc.toNat := by
  unfold dutyPhase
  split
  · rw [stepDuty_acc_eq, if_pos hv]
  · rfl

/-! ### `UPD`, `CC1`, `CC2` -/

/-- The thresholds of the state `s`, written to the preload registers (U2, U3; R98, R99). -/
theorem updThresholds_eq (s : State) :
    updThresholds s =
      { s with
        ccr1Pre := threshold s (dutyOf s)
        ccr2Pre := threshold s (prevDutyOf s)
        out := s.out ++ [.ccr .one (threshold s (dutyOf s)), .ccr .two (threshold s (prevDutyOf s))] } := by
  simp [updThresholds, ccrWrite]

@[simp] theorem updThresholds_cfg (s : State) : (updThresholds s).cfg = s.cfg := rfl
@[simp] theorem updThresholds_idx (s : State) : (updThresholds s).idx = s.idx := rfl
@[simp] theorem updThresholds_halted (s : State) : (updThresholds s).halted = s.halted := rfl

/-- Both lights of the pair ON, the active one first (U4, R100). -/
def pairOn (i : BitVec 3) : List Command := [.led i true, .led (prevOf i) true]

/-- U4 as commands. -/
theorem updLightsOn_eq (s : State) : updLightsOn s = issue (pairOn s.idx) s := by
  simp only [updLightsOn, ledWrite_eq_issue, issue_issue, prevIndexOf_eq_prevOf]
  rfl

/-- The `UPD` handler: the cycle counter first, then the thresholds and the lights of the state after it, then the duty
step (R96). -/
theorem onUpd_eq (s : State) :
    onUpd s = stepDuty (issue (pairOn (countSegment s).idx) (updThresholds (countSegment s))) := by
  rw [onUpd, updLightsOn_eq, updThresholds_idx]

@[simp] theorem onUpd_cfg (s : State) : (onUpd s).cfg = s.cfg := by simp [onUpd_eq]
@[simp] theorem onUpd_idx (s : State) : (onUpd s).idx = (countSegment s).idx := by simp [onUpd_eq]
@[simp] theorem onUpd_seg (s : State) : (onUpd s).seg = (countSegment s).seg := by simp [onUpd_eq, updThresholds_eq]
@[simp] theorem onUpd_tickcnt (s : State) : (onUpd s).tickcnt = s.tickcnt := by simp [onUpd_eq, updThresholds_eq]
@[simp] theorem onUpd_cnt (s : State) : (onUpd s).cnt = s.cnt := by simp [onUpd_eq, updThresholds_eq]
@[simp] theorem onUpd_ccr1Act (s : State) : (onUpd s).ccr1Act = s.ccr1Act := by simp [onUpd_eq, updThresholds_eq]
@[simp] theorem onUpd_ccr2Act (s : State) : (onUpd s).ccr2Act = s.ccr2Act := by simp [onUpd_eq, updThresholds_eq]
@[simp] theorem onUpd_halted (s : State) : (onUpd s).halted = s.halted := by simp [onUpd_eq, updThresholds_eq]
@[simp] theorem onUpd_pend (s : State) : (onUpd s).pend = s.pend := by simp [onUpd_eq, updThresholds_eq]
@[simp] theorem onUpd_ret (s : State) : (onUpd s).ret = s.ret := by simp [onUpd_eq, updThresholds_eq]
@[simp] theorem onUpd_input (s : State) : (onUpd s).input = s.input := by simp [onUpd_eq, updThresholds_eq]

/-- The commands of the comparators that match, for the light `i` and the one before it (R102, R103). -/
def compareCommands (m1 m2 : Bool) (i : BitVec 3) : List Command :=
  issueIf (m1 = true) (.led i false) ++ issueIf (m2 = true) (.led (prevOf i) false)

/-- `CC1` and `CC2` as they match, in this order. -/
theorem handleWhen_compare (m1 m2 : Bool) (s : State) :
    handleWhen m2 .cc2 (handleWhen m1 .cc1 s) = issue (compareCommands m1 m2 s.idx) s := by
  have cc1 : handleWhen m1 .cc1 s = issue (issueIf (m1 = true) (.led s.idx false)) s := ite_ledWrite _ _ _ s
  have cc2 (t : State) : handleWhen m2 .cc2 t = issue (issueIf (m2 = true) (.led (prevOf t.idx) false)) t := by
    rw [← prevIndexOf_eq_prevOf]
    exact ite_ledWrite _ _ _ t
  rw [cc2, cc1, issue_issue, issue_idx, compareCommands]

/-! ### `CLK` -/

/-- The counter stands at the last tick of a period (R105). -/
theorem atPeriodEnd_eq {s : State} (hP : 1 ≤ s.cfg.P) : atPeriodEnd s = decide (s.cnt.toNat + 1 = s.cfg.P) := by
  have hP : 1 ≤ s.cfg.period.toNat := hP
  rw [atPeriodEnd, Config.P, decide_eq_decide]
  bv_omega

/-- The counter does not wrap below `P` (R15). -/
theorem cnt_succ_toNat {s : State} (below : s.cnt.toNat < s.cfg.P) : (s.cnt + 1).toNat = s.cnt.toNat + 1 := by
  have hlt := s.cfg.P_lt
  rw [BitVec.toNat_add]
  exact Nat.mod_eq_of_lt (by show _ + 1 < _; omega)

/-- The timer unit at a boundary (R105, R106). -/
theorem timerAdvance_end {s : State} (h : atPeriodEnd s = true) :
    timerAdvance s = { s with cnt := 0, ccr1Act := s.ccr1Pre, ccr2Act := s.ccr2Pre } := if_pos h

/-- The timer unit inside a period (R105). -/
theorem timerAdvance_inside {s : State} (h : atPeriodEnd s = false) : timerAdvance s = { s with cnt := s.cnt + 1 } :=
  if_neg (Bool.eq_false_iff.mp h)

/-- The timer unit's registers, and whether the unit is in the model at all, set as given: what the handlers of `HW`
do not read (R113). -/
def withTimer (e : Env) (cnt a1 a2 : BitVec 16) (s : State) : State :=
  { s with cfg := { s.cfg with env := e }, cnt := cnt, ccr1Act := a1, ccr2Act := a2 }

@[simp] theorem withTimer_idx (e : Env) (c a b : BitVec 16) (s : State) : (withTimer e c a b s).idx = s.idx := rfl
@[simp] theorem withTimer_acc (e : Env) (c a b : BitVec 16) (s : State) : (withTimer e c a b s).acc = s.acc := rfl
@[simp] theorem withTimer_seg (e : Env) (c a b : BitVec 16) (s : State) : (withTimer e c a b s).seg = s.seg := rfl
@[simp] theorem withTimer_tickcnt (e : Env) (c a b : BitVec 16) (s : State) :
    (withTimer e c a b s).tickcnt = s.tickcnt := rfl
@[simp] theorem withTimer_cnt (e : Env) (c a b : BitVec 16) (s : State) : (withTimer e c a b s).cnt = c := rfl
@[simp] theorem withTimer_ccr1Pre (e : Env) (c a b : BitVec 16) (s : State) :
    (withTimer e c a b s).ccr1Pre = s.ccr1Pre := rfl
@[simp] theorem withTimer_ccr2Pre (e : Env) (c a b : BitVec 16) (s : State) :
    (withTimer e c a b s).ccr2Pre = s.ccr2Pre := rfl
@[simp] theorem withTimer_ccr1Act (e : Env) (c a b : BitVec 16) (s : State) : (withTimer e c a b s).ccr1Act = a := rfl
@[simp] theorem withTimer_ccr2Act (e : Env) (c a b : BitVec 16) (s : State) : (withTimer e c a b s).ccr2Act = b := rfl
@[simp] theorem withTimer_led (e : Env) (c a b : BitVec 16) (s : State) : (withTimer e c a b s).led = s.led := rfl
@[simp] theorem withTimer_halted (e : Env) (c a b : BitVec 16) (s : State) :
    (withTimer e c a b s).halted = s.halted := rfl
@[simp] theorem withTimer_pend (e : Env) (c a b : BitVec 16) (s : State) : (withTimer e c a b s).pend = s.pend := rfl
@[simp] theorem withTimer_out (e : Env) (c a b : BitVec 16) (s : State) : (withTimer e c a b s).out = s.out := rfl
@[simp] theorem withTimer_ret (e : Env) (c a b : BitVec 16) (s : State) : (withTimer e c a b s).ret = s.ret := rfl
@[simp] theorem withTimer_input (e : Env) (c a b : BitVec 16) (s : State) :
    (withTimer e c a b s).input = s.input := rfl

/-- The cycle counter's step does not read the timer unit. -/
theorem countSegment_withTimer (e : Env) (cnt a1 a2 : BitVec 16) (s : State) :
    countSegment (withTimer e cnt a1 a2 s) = withTimer e cnt a1 a2 (countSegment s) := by
  by_cases h : s.seg + 1 = s.cfg.fade
  · rw [countSegment_end s h]; exact countSegment_end _ h
  · rw [countSegment_inside s h]; exact countSegment_inside _ h

/-- Nor does setting the thresholds. -/
theorem updThresholds_withTimer (e : Env) (cnt a1 a2 : BitVec 16) (s : State) :
    updThresholds (withTimer e cnt a1 a2 s) = withTimer e cnt a1 a2 (updThresholds s) := rfl

/-- Nor does turning both lights on. -/
theorem updLightsOn_withTimer (e : Env) (cnt a1 a2 : BitVec 16) (s : State) :
    updLightsOn (withTimer e cnt a1 a2 s) = withTimer e cnt a1 a2 (updLightsOn s) := rfl

/-- Nor does `STEP_DUTY`. -/
theorem stepDuty_withTimer (e : Env) (cnt a1 a2 : BitVec 16) (s : State) :
    stepDuty (withTimer e cnt a1 a2 s) = withTimer e cnt a1 a2 (stepDuty s) := rfl

/-- No handler of `HW` reads the timer unit. -/
theorem handlerOf_withTimer (h : Source) (hh : h ≠ .tick) (e : Env) (cnt a1 a2 : BitVec 16) (s : State) :
    handlerOf h (withTimer e cnt a1 a2 s) = withTimer e cnt a1 a2 (handlerOf h s) := by
  cases h with
  | tick => exact absurd rfl hh
  | upd =>
    simp only [handlerOf, onUpd, countSegment_withTimer, updThresholds_withTimer, updLightsOn_withTimer,
      stepDuty_withTimer]
  | cc1 => rfl
  | cc2 => rfl

/-- Nor does a handler that runs when its event is raised. -/
theorem handleWhen_withTimer (b : Bool) (h : Source) (hh : h ≠ .tick) (e : Env) (cnt a1 a2 : BitVec 16) (s : State) :
    handleWhen b h (withTimer e cnt a1 a2 s) = withTimer e cnt a1 a2 (handleWhen b h s) := by
  cases b
  · rfl
  · exact handlerOf_withTimer h hh e cnt a1 a2 s

/-- A `CLK` inside a period: the counter, and the commands of the comparators (R108). -/
theorem clockTick_inside {s : State} (idle : IdleHw s) (h : atPeriodEnd s = false) :
    clockTick s =
      issue (compareCommands (decide (s.cnt + 1 = s.ccr1Act)) (decide (s.cnt + 1 = s.ccr2Act)) s.idx)
        { s with cnt := s.cnt + 1 } := by
  rw [clockTick_eq idle, handleWhen_compare, h, timerAdvance_inside h]
  rfl

/-- A `CLK` at a boundary: the transfer, `UPD`, and the commands of the comparators (R108). -/
theorem clockTick_end {s : State} (idle : IdleHw s) (h : atPeriodEnd s = true) :
    clockTick s =
      issue (compareCommands (decide (0 = s.ccr1Pre)) (decide (0 = s.ccr2Pre)) (onUpd s).idx)
        (withTimer s.cfg.env 0 s.ccr1Pre s.ccr2Pre (onUpd s)) := by
  have advanced : timerAdvance s = withTimer s.cfg.env 0 s.ccr1Pre s.ccr2Pre s := timerAdvance_end h
  have handled : handleWhen true .upd (withTimer s.cfg.env 0 s.ccr1Pre s.ccr2Pre s) =
      withTimer s.cfg.env 0 s.ccr1Pre s.ccr2Pre (onUpd s) := handlerOf_withTimer .upd (by decide) _ _ _ _ s
  rw [clockTick_eq idle, handleWhen_compare, h, advanced, handled]
  rfl

end Sys2Proof.Machine

/-! Proofs of the statements of 10_state.md: which operation writes which register, and the invariant of the machine. -/

namespace Sys2Proof.Machine

open Sys2Proof.Claims

/-- What a `CLK` leaves alone, with nothing pending before it. -/
theorem clockTick_frame {s : State} (idle : IdleHw s) :
    (clockTick s).pend = 0 ∧ (clockTick s).input = s.input ∧ (clockTick s).tickcnt = s.tickcnt ∧
      (clockTick s).ret = s.ret := by
  have ⟨_, _, hp⟩ := idle
  cases h : atPeriodEnd s with
  | true =>
    rw [clockTick_end idle h]
    simp [hp]
  | false =>
    rw [clockTick_inside idle h]
    simp [hp]

/-- The ring and the cycle counter after a `CLK`: as before inside a period, and as `UPD` leaves them at a boundary. -/
theorem clockTick_ring {s : State} (idle : IdleHw s) :
    ((clockTick s).idx = s.idx ∧ (clockTick s).seg = s.seg) ∨
      ((clockTick s).idx = (countSegment s).idx ∧ (clockTick s).seg = (countSegment s).seg) := by
  cases h : atPeriodEnd s with
  | true =>
    rw [clockTick_end idle h]
    exact .inr (by simp)
  | false =>
    rw [clockTick_inside idle h]
    exact .inl (by simp)

/-- What an operation does to a running block with nothing pending, in a build that has it: an event is its handler
(R47, R123, R124). -/
inductive Effect (s : State) : Instr → State → Prop
  | lookup (x : Byte) : Effect s (.lookup x) (returning (fun s => romRead s x) s)
  | round (n : BitVec 40) : Effect s (.round n) (returning (fun s => roundLinear s n.toNat) s)
  | stepDuty : Effect s .stepDuty (stepDuty s)
  | duty : Effect s .duty (returning dutyOf s)
  | prevIndex : Effect s .prevIndex (returning (fun s => (prevIndexOf s).setWidth 8) s)
  | prevDuty : Effect s .prevDuty (returning prevDutyOf s)
  | rotate : Effect s .rotate (rotate s)
  | tick (sw : s.cfg.variant = .sw) : Effect s .tick (onTick s)
  | upd (hw : s.cfg.variant = .hw) : Effect s .upd (onUpd s)
  | cc1 (hw : s.cfg.variant = .hw) : Effect s .cc1 (ledWrite s.idx false s)
  | cc2 (hw : s.cfg.variant = .hw) : Effect s .cc2 (ledWrite (prevOf s.idx) false s)
  | clk (hw : s.cfg.variant = .hw) (closed : s.cfg.env = .closed) : Effect s .clk (clockTick s)
  | ledOff (j : BitVec 3) : Effect s (.ledOff j) (ledWrite j false s)
  | ledOn (j : BitVec 3) : Effect s (.ledOn j) (ledWrite j true s)
  | ccrWr (hw : s.cfg.variant = .hw) (n : Channel) (v : BitVec 16) : Effect s (.ccrWr n v) (ccrWrite n v s)

/-- The effect of an offered operation, with the arrival of its event carried out. -/
theorem effectOf_effect {i : Instr} {s : State} (offer : offered s.cfg i = true) (running : s.halted = false)
    (idle : s.pend = 0) : Effect s i (effectOf i s) := by
  have hwEvent (e : Source) (he : e ≠ .tick) (opened : isHwOpened s.cfg = true) :
      s.cfg.variant = .hw ∧ arrive e s = handlerOf e s := by
    have hw := of_decide_eq_true (Bool.and_eq_true_iff.mp opened).1
    exact ⟨hw, arrive_hw e he running hw idle⟩
  cases i
  case tick =>
    have sw : s.cfg.variant = .sw := of_decide_eq_true offer
    rw [effectOf, arrive_tick running sw idle]
    exact .tick sw
  case upd =>
    obtain ⟨hw, handled⟩ := hwEvent .upd (by decide) offer
    rw [effectOf, handled]
    exact .upd hw
  case cc1 =>
    obtain ⟨hw, handled⟩ := hwEvent .cc1 (by decide) offer
    rw [effectOf, handled]
    exact .cc1 hw
  case cc2 =>
    obtain ⟨hw, handled⟩ := hwEvent .cc2 (by decide) offer
    rw [effectOf, handled, handlerOf_cc2]
    exact .cc2 hw
  case clk =>
    obtain ⟨hw, closed⟩ := Bool.and_eq_true_iff.mp offer
    exact .clk (of_decide_eq_true hw) (of_decide_eq_true closed)
  case ccrWr n v => exact .ccrWr (of_decide_eq_true offer) n v
  all_goals constructor

/-- All that an operation can do with nothing pending: a halted block stays as it is, a running one has the effect. -/
theorem exec_effect {i : Instr} {s t : State} (idle : s.pend = 0) (h : exec i s = .next t) :
    (s.halted = true ∧ t = s) ∨ (s.halted = false ∧ Effect s i t) := by
  obtain ⟨offer, -, ⟨halted, same⟩ | ⟨running, rfl⟩⟩ := exec_next h
  · exact .inl ⟨halted, same⟩
  · exact .inr ⟨running, effectOf_effect offer running idle⟩

/-- Settles O51: effect by effect, which registers it writes. -/
theorem registersHaveTheirWriters : Obligations.RegistersHaveTheirWriters := by
  intro i s t idle h
  obtain ⟨-, rfl⟩ | ⟨running, effect⟩ := exec_effect idle h
  · simp [idle]
  · cases effect with
    | tick => simp [onTick_eq, idle, Instr.format]
    | clk hw =>
      obtain ⟨pend, input, tickcnt, ret⟩ := clockTick_frame ⟨running, hw, idle⟩
      simp [pend, input, tickcnt, ret, Instr.format]
    | ccrWr hw n v => cases n <;> simp [idle, Instr.format]
    | _ => simp [idle, Instr.format]

/-- The cycle counter does not wrap below `F` (R13). -/
theorem seg_succ_toNat {s : State} (below : s.seg.toNat < s.cfg.F) : (s.seg + 1).toNat = s.seg.toNat + 1 := by
  have hlt := s.cfg.F_lt
  rw [BitVec.toNat_add]
  exact Nat.mod_eq_of_lt (by show _ + 1 < _; omega)

/-- So it reaches `F` in 32 bits when it does so as a number. -/
theorem seg_succ_eq_fade_iff {s : State} (below : s.seg.toNat < s.cfg.F) :
    s.seg + 1 = s.cfg.fade ↔ s.seg.toNat + 1 = s.cfg.F := by
  rw [← BitVec.toNat_inj, seg_succ_toNat below, Config.F]

/-- The cycle counter's step in numbers, where the segment ends (R86, R97). -/
theorem countSegment_of_end {s : State} (h : s.seg.toNat < s.cfg.F) (last : s.seg.toNat + 1 = s.cfg.F) :
    countSegment s = { s with idx := succOf s.idx, acc := 0, seg := 0 } := by
  rw [countSegment_end s ((seg_succ_eq_fade_iff h).mpr last), succOf_eq_add_one]

/-- The cycle counter's step in numbers, inside a segment. -/
theorem countSegment_of_inside {s : State} (h : s.seg.toNat < s.cfg.F) (more : s.seg.toNat + 1 ≠ s.cfg.F) :
    countSegment s = { s with seg := s.seg + 1 } :=
  countSegment_inside s (mt (seg_succ_eq_fade_iff h).mp more)

/-- The fade state after the cycle counter's step, in numbers (R86, R97). -/
theorem countSegment_values {s : State} (below : s.seg.toNat < s.cfg.F) :
    (countSegment s).seg.toNat = (if s.seg.toNat + 1 = s.cfg.F then 0 else s.seg.toNat + 1) ∧
      (countSegment s).idx = (if s.seg.toNat + 1 = s.cfg.F then succOf s.idx else s.idx) ∧
      (countSegment s).acc.toNat = if s.seg.toNat + 1 = s.cfg.F then 0 else s.acc.toNat := by
  by_cases last : s.seg.toNat + 1 = s.cfg.F
  · rw [countSegment_of_end below last, if_pos last, if_pos last, if_pos last]
    exact ⟨rfl, rfl, rfl⟩
  · rw [countSegment_of_inside below last, if_neg last, if_neg last, if_neg last, seg_succ_toNat below]
    exact ⟨rfl, rfl, rfl⟩

/-- The ring turns in the cycle counter's step where the segment ends, and only there. -/
theorem countSegment_ring {s : State} (h : s.seg.toNat < s.cfg.F) :
    (countSegment s).idx = s.idx ∨
      ((countSegment s).idx = succOf s.idx ∧ s.seg.toNat + 1 = s.cfg.F ∧ (countSegment s).seg = 0) := by
  by_cases last : s.seg.toNat + 1 = s.cfg.F
  · rw [countSegment_of_end h last]
    exact .inr ⟨rfl, last, rfl⟩
  · rw [countSegment_of_inside h last]
    exact .inl rfl

/-- Settles O50: of the effects but `ROTATE`, only those with a step of the cycle counter can turn the ring. -/
theorem ringTurnsAtSegmentEndOnly : Obligations.RingTurnsAtSegmentEndOnly := by
  intro i s t notRotate idle inSegment h
  obtain ⟨-, rfl⟩ | ⟨running, effect⟩ := exec_effect idle h
  · exact .inl rfl
  · cases effect with
    | rotate => exact absurd rfl notRotate
    | tick =>
      have ring := countSegment_ring (s := dutyPhase s) (by simpa using inSegment)
      simpa [onTick_eq] using ring
    | upd =>
      have ring := countSegment_ring inSegment
      simpa using ring
    | clk hw =>
      obtain ⟨idx, -⟩ | ⟨idx, seg⟩ := clockTick_ring ⟨running, hw, idle⟩
      · exact .inl idx
      · have ring := countSegment_ring inSegment
        simpa [idx, seg] using ring
    | _ => simp

end Sys2Proof.Machine

/-! Proofs that every update of a running block keeps the invariant of the machine, and with it every step
(10_state.md). -/

namespace Sys2Proof.Machine

open Sys2Proof.Claims

/-- An LED command is admissible in every build (R34). -/
theorem commandAdmissible_led (c : Config) (i : BitVec 3) (b : Bool) : commandAdmissible c (.led i b) = true := by
  cases b <;> rfl

/-- An LED command under a condition is admissible. -/
theorem issueIf_led_admissible (c : Config) (p : Prop) [Decidable p] (i : BitVec 3) (b : Bool) :
    ∀ k ∈ issueIf p (.led i b), commandAdmissible c k = true := by
  unfold issueIf
  split
  · simp [commandAdmissible_led]
  · simp

/-- A compare write of at most `P` is admissible in `HW` (R36). -/
theorem commandAdmissible_ccr {c : Config} (hw : c.variant = .hw) (n : Channel) {v : BitVec 16}
    (range : v.toNat ≤ c.P) : commandAdmissible c (.ccr n v) = true :=
  Bool.and_eq_true_iff.mpr ⟨decide_eq_true hw, decide_eq_true range⟩

/-- The commands of a `TICK` are admissible. -/
theorem tickCommands_admissible (c : Config) (t d p : Byte) (i : BitVec 3) :
    ∀ k ∈ tickCommands t d p i, commandAdmissible c k = true := by
  simp only [tickCommands, List.forall_mem_append]
  exact ⟨issueIf_led_admissible _ _ _ _, issueIf_led_admissible _ _ _ _, issueIf_led_admissible _ _ _ _,
    issueIf_led_admissible _ _ _ _⟩

/-- The ON commands of `UPD` are admissible. -/
theorem pairOn_admissible (c : Config) (i : BitVec 3) : ∀ k ∈ pairOn i, commandAdmissible c k = true := by
  simp [pairOn, commandAdmissible_led]

/-- The commands of the comparators are admissible. -/
theorem compareCommands_admissible (c : Config) (m1 m2 : Bool) (i : BitVec 3) :
    ∀ k ∈ compareCommands m1 m2 i, commandAdmissible c k = true :=
  List.forall_mem_append.mpr ⟨issueIf_led_admissible _ _ _ _, issueIf_led_admissible _ _ _ _⟩

section

variable {s : State} (inv : s.Inv) (running : s.halted = false)

include running in
/-- A running block has nothing to show about a halted one. -/
theorem not_halted {p : Prop} (halted : s.halted = true) : p :=
  absurd (halted.symm.trans running) (by decide)

include inv running

/-- Issuing admissible commands keeps the invariant (R30, R36, R41). -/
theorem inv_issue {cs : List Command} (admissible : ∀ k ∈ cs, commandAdmissible s.cfg k = true) :
    (issue cs s).Inv :=
  { inv with
    ledReplay := by rw [issue_led, issue_out, applyCommands_append, ← inv.ledReplay]
    outAdmissible := List.forall_mem_append.mpr ⟨inv.outAdmissible, admissible⟩
    haltedReset := not_halted running }

/-- `LedWrite` keeps the invariant. -/
theorem inv_ledWrite (i : BitVec 3) (b : Bool) : (ledWrite i b s).Inv := by
  rw [ledWrite_eq_issue]
  exact inv_issue inv running (by simp [commandAdmissible_led])

/-- Values within their ranges may stand in the fade state (R11, R12, R13). -/
theorem inv_fade (i : BitVec 3) {a : BitVec 40} {n : BitVec 32} (ha : a.toNat ≤ 255 * s.cfg.F)
    (hn : n.toNat < s.cfg.F) : ({ s with idx := i, acc := a, seg := n } : State).Inv :=
  { inv with
    accLe := ha
    segLt := hn
    haltedReset := not_halted running }

/-- `STEP_DUTY` keeps the invariant: it clamps. -/
theorem inv_stepDuty : (stepDuty s).Inv :=
  inv_fade inv running s.idx ((stepDuty_acc_toNat s).trans_le (min_le_right _ _)) inv.segLt

/-- `ROTATE` keeps the invariant. -/
theorem inv_rotate : (rotate s).Inv := inv_fade inv running (s.idx + 1) (a := 0) (Nat.zero_le _) inv.segLt

/-- The cycle counter's step keeps the invariant: it starts again at `F` (R86). -/
theorem inv_countSegment : (countSegment s).Inv := by
  have below := inv.segLt
  by_cases last : s.seg.toNat + 1 = s.cfg.F
  · rw [countSegment_of_end below last]
    exact inv_fade inv running _ (a := 0) (n := 0) (Nat.zero_le _) (Config.one_le_F inv.legal)
  · rw [countSegment_of_inside below last]
    have next : (s.seg + 1).toNat < s.cfg.F := by
      rw [seg_succ_toNat below]
      exact Nat.lt_of_le_of_ne below last
    exact inv_fade inv running s.idx inv.accLe next

/-- The duty step of S2 keeps the invariant. -/
theorem inv_dutyPhase : (dutyPhase s).Inv := by
  unfold dutyPhase
  split
  · exact inv_stepDuty inv running
  · exact inv

/-- The tick counter is free in `SW` (R14). -/
theorem inv_tickCount (sw : s.cfg.variant = .sw) : (tickCount s).Inv :=
  { inv with
    absentInHw := fun hw => absurd (sw.symm.trans hw) (by decide)
    haltedReset := not_halted running }

/-- The record of a micro-operation's value is no register. -/
theorem inv_returning (v : State → Byte) : (returning v s).Inv :=
  { inv with haltedReset := not_halted running }

/-- A compare write of at most `P` keeps the invariant (R16, R36). -/
theorem inv_ccrWrite (hw : s.cfg.variant = .hw) (n : Channel) {v : BitVec 16} (range : v.toNat ≤ s.cfg.P) :
    (ccrWrite n v s).Inv := by
  have admissible : ∀ k ∈ s.out ++ [.ccr n v], commandAdmissible s.cfg k = true :=
    List.forall_mem_append.mpr ⟨inv.outAdmissible,
      List.forall_mem_singleton.mpr (commandAdmissible_ccr hw n range)⟩
  have replay : s.led = applyCommands 0 (s.out ++ [.ccr n v]) := by
    rw [applyCommands_append, ← inv.ledReplay]
    rfl
  obtain ⟨cnt, pre1, pre2, act1, act2⟩ := inv.timerRange hw
  have noSw (sw : s.cfg.variant = .sw) {p : Prop} : p := absurd (hw.symm.trans sw) (by decide)
  cases n with
  | one => exact
    { inv with
      timerRange := fun _ => ⟨cnt, range, pre2, act1, act2⟩
      absentInSw := fun sw => noSw sw
      ledReplay := replay
      outAdmissible := admissible
      haltedReset := not_halted running }
  | two => exact
    { inv with
      timerRange := fun _ => ⟨cnt, pre1, range, act1, act2⟩
      absentInSw := fun sw => noSw sw
      ledReplay := replay
      outAdmissible := admissible
      haltedReset := not_halted running }

/-- Values within the ranges of the timer unit may stand in its registers, where it is in the model (R15, R16). -/
theorem inv_withTimer (hw : s.cfg.variant = .hw) (closed : s.cfg.env = .closed) {c a b : BitVec 16}
    (hc : c.toNat < s.cfg.P) (ha : a.toNat ≤ s.cfg.P) (hb : b.toNat ≤ s.cfg.P) :
    (withTimer s.cfg.env c a b s).Inv := by
  obtain ⟨-, pre1, pre2, -, -⟩ := inv.timerRange hw
  exact
    { inv with
      timerRange := fun _ => ⟨hc, pre1, pre2, ha, hb⟩
      absentInSw := fun sw => absurd (hw.symm.trans sw) (by decide)
      absentInOpened := fun _ opened => absurd (closed.symm.trans opened) (by decide)
      haltedReset := not_halted running }

/-- The `TICK` handler keeps the invariant. -/
theorem inv_onTick (sw : s.cfg.variant = .sw) : (onTick s).Inv := by
  have stepped := inv_dutyPhase inv running
  have counted := inv_countSegment stepped (by simpa using running)
  have ticked := inv_tickCount counted (by simpa using running) (by simpa using sw)
  rw [onTick_eq]
  exact inv_issue ticked (by simpa using running) (tickCommands_admissible _ _ _ _ _)

/-- The `UPD` handler keeps the invariant: its thresholds are within the period (R98). -/
theorem inv_onUpd (hw : s.cfg.variant = .hw) : (onUpd s).Inv := by
  have counted := inv_countSegment inv running
  have first := inv_ccrWrite counted (by simpa using running) (by simpa using hw) .one
    (threshold_le (countSegment s) (dutyOf (countSegment s)))
  have second := inv_ccrWrite first (by simpa using running) (by simpa using hw) .two
    (v := threshold (countSegment s) (prevDutyOf (countSegment s))) (by simpa using threshold_le (countSegment s) _)
  have lit := inv_issue second (by simpa using running) (pairOn_admissible _ (countSegment s).idx)
  rw [onUpd_eq]
  exact inv_stepDuty lit (by simpa using running)

/-- A `CLK` keeps the invariant: the counter stays below `P`, and thresholds move within the compare registers. -/
theorem inv_clockTick (hw : s.cfg.variant = .hw) (closed : s.cfg.env = .closed) : (clockTick s).Inv := by
  obtain ⟨cnt, pre1, pre2, act1, act2⟩ := inv.timerRange hw
  have hP := Config.one_le_P inv.legal hw
  have idle : IdleHw s := ⟨running, hw, inv.pendZero⟩
  have edge := atPeriodEnd_eq hP
  cases h : atPeriodEnd s with
  | true =>
    rw [clockTick_end idle h]
    have updated := inv_withTimer (inv_onUpd inv running hw) (by simpa using running) (by simpa using hw)
      (by simpa using closed) (c := 0) (a := s.ccr1Pre) (b := s.ccr2Pre) ((onUpd_cfg s).symm ▸ hP)
      ((onUpd_cfg s).symm ▸ pre1) ((onUpd_cfg s).symm ▸ pre2)
    rw [onUpd_cfg] at updated
    exact inv_issue updated (by simpa using running) (compareCommands_admissible _ _ _ _)
  | false =>
    rw [clockTick_inside idle h]
    rw [h] at edge
    have more : s.cnt.toNat + 1 ≠ s.cfg.P := of_decide_eq_false edge.symm
    have below : (s.cnt + 1).toNat < s.cfg.P := by
      rw [cnt_succ_toNat cnt]
      exact Nat.lt_of_le_of_ne cnt more
    have advanced := inv_withTimer inv running hw closed below act1 act2
    exact inv_issue advanced running (compareCommands_admissible _ _ _ _)

/-- Every effect of a well-formed operation keeps the invariant. -/
theorem inv_effect {i : Instr} {t : State} (effect : Effect s i t) (wf : i.wellFormed s.cfg = true) : t.Inv := by
  cases effect with
  | stepDuty => exact inv_stepDuty inv running
  | rotate => exact inv_rotate inv running
  | tick sw => exact inv_onTick inv running sw
  | upd hw => exact inv_onUpd inv running hw
  | cc1 => exact inv_ledWrite inv running _ _
  | cc2 => exact inv_ledWrite inv running _ _
  | clk hw closed => exact inv_clockTick inv running hw closed
  | ledOff j => exact inv_ledWrite inv running _ _
  | ledOn j => exact inv_ledWrite inv running _ _
  | ccrWr hw n v => exact inv_ccrWrite inv running hw n (of_decide_eq_true (Bool.and_eq_true_iff.mp wf).2)
  | _ => exact inv_returning inv running _

end

/-- Taking a word from the input keeps the invariant. -/
theorem inv_taken {s : State} (inv : s.Inv) {c : Code} {rest : List Code} (hin : s.input = c :: rest) :
    ({ s with input := rest } : State).Inv :=
  { inv with
    haltedReset := fun halted => congrArg (fun u : State => { u with input := rest }) (inv.haltedReset halted)
    inputWellFormed := fun w hw => inv.inputWellFormed w (hin ▸ List.mem_cons_of_mem c hw) }

/-- Settles O15: a step idles, finds the block halted, or performs a well-formed operation's effect. -/
theorem stepKeepsInvariant : Obligations.StepKeepsInvariant := by
  intro s t inv h
  obtain ⟨-, rfl⟩ | ⟨c, rest, i, hin, hc, he⟩ := step_next h
  · exact inv
  · have taken := inv_taken inv hin
    obtain ⟨-, rfl⟩ | ⟨running, effect⟩ := exec_effect taken.pendZero he
    · exact taken
    · exact inv_effect taken running effect (inv.inputWellFormed c (hin ▸ List.mem_cons_self) i hc)

/-- Settles O14: legal parameters make `SEG` and `CNT` of reset admissible, and `OUT` is empty. -/
theorem resetMeetsInvariant : Obligations.ResetMeetsInvariant := by
  have reset (c : Config) (ok : Bool) (legal : c.legal = true) : (State.resetOf c ok).Inv :=
    { legal := legal
      accLe := Nat.zero_le _
      segLt := Config.one_le_F legal
      pendZero := rfl
      timerRange := fun hw =>
        ⟨Config.one_le_P legal hw, Nat.zero_le _, Nat.zero_le _, Nat.zero_le _, Nat.zero_le _⟩
      absentInSw := fun _ => ⟨rfl, rfl, rfl, rfl, rfl⟩
      absentInHw := fun _ => rfl
      absentInOpened := fun _ _ => ⟨rfl, rfl, rfl⟩
      ledReplay := rfl
      outAdmissible := nofun
      haltedReset := fun halted => by
        cases ok
        · rfl
        · cases halted
      inputWellFormed := nofun }
  exact ⟨reset, reset Config.reference true (by decide)⟩

end Sys2Proof.Machine

/-! Proofs of the statements of 42_fade_scheduler_sw.md. -/

namespace Sys2Proof.Machine

open Sys2Proof.Claims

/-! ### Runs of one event -/

/-- A run begins with its first operation (R161). -/
theorem execAll_cons {i : Instr} {s t : State} (h : exec i s = .next t) (is : List Instr) :
    execAll (i :: is) s = execAll is t := by
  simp only [execAll, h]

/-- Runs one after the other. -/
theorem execAll_append {is : List Instr} {s t : State} (h : execAll is s = .next t) (js : List Instr) :
    execAll (is ++ js) s = execAll js t := by
  induction is generalizing s with
  | nil => rw [Host.Outcome.next.inj h, List.nil_append]
  | cons i is ih =>
    unfold execAll at h
    split at h
    case h_1 u hu =>
      rw [List.cons_append, execAll_cons hu]
      exact ih h
    case h_2 => cases h
    case h_3 => cases h

/-- What holds after no event, and after one more event than before, holds after each of the first `N` events; and these
events complete. -/
theorem execAll_replicate {P : Nat → State → Prop} {i : Instr} {s : State} (N : Nat) (start : P 0 s)
    (step : ∀ k t, k < N → P k t → ∃ u, exec i t = .next u ∧ P (k + 1) u) (n : Nat) (hn : n ≤ N) :
    ∃ t, execAll (List.replicate n i) s = .next t ∧ P n t := by
  induction n with
  | zero => exact ⟨s, rfl, start⟩
  | succ n ih =>
    obtain ⟨t, run, hP⟩ := ih (Nat.le_of_succ_le hn)
    obtain ⟨u, next, hu⟩ := step n t hn hP
    refine ⟨u, ?_, hu⟩
    rw [List.replicate_succ', execAll_append run, execAll_cons next]
    rfl

/-- A ready block of a build that has the event, with nothing pending: it awaits the event. -/
structure Awaits (i : Instr) (s : State) : Prop where
  ready : s.Ready
  offer : offered s.cfg i = true
  idle : s.pend = 0

/-- Whether a block awaits an event depends on its parameters, `HALTED` and `PEND`. -/
theorem Awaits.congr {i : Instr} {s t : State} (h : Awaits i s) (hcfg : t.cfg = s.cfg) (hhalted : t.halted = s.halted)
    (hpend : t.pend = s.pend) : Awaits i t :=
  ⟨⟨hcfg ▸ h.ready.legal, hhalted.trans h.ready.running⟩, hcfg ▸ h.offer, hpend.trans h.idle⟩

/-- `F` of a block that awaits an event. -/
theorem Awaits.one_le_F {i : Instr} {s : State} (h : Awaits i s) : 1 ≤ s.cfg.F := Config.one_le_F h.ready.legal

/-- After a successful reset the block awaits every event that its build has (R28). -/
theorem awaits_reset {c : Config} {i : Instr} (legal : c.legal = true) (offer : offered c i = true) :
    Awaits i (State.resetOf c true) := ⟨⟨legal, rfl⟩, offer, rfl⟩

/-- The next multiple of `b` is reached, or the remainder counts. -/
theorem succ_div_mod {b : Nat} (hb : 0 < b) (n : Nat) :
    (n % b + 1 = b ∧ (n + 1) / b = n / b + 1 ∧ (n + 1) % b = 0) ∨
      (n % b + 1 ≠ b ∧ (n + 1) / b = n / b ∧ (n + 1) % b = n % b + 1) := by
  have split := Nat.div_add_mod n b
  have below := Nat.mod_lt n hb
  by_cases last : n % b + 1 = b
  · refine .inl ⟨last, (Nat.div_mod_unique hb).mpr ⟨?_, hb⟩⟩
    rw [Nat.mul_add]
    omega
  · exact .inr ⟨last, (Nat.div_mod_unique hb).mpr ⟨by omega, by omega⟩⟩

/-- The cycle counter and the ring count events: their remainder and their number of full segments (R86, R97). -/
theorem countSegment_counts {s : State} {m : Nat} (hF : 1 ≤ s.cfg.F) (seg : s.seg.toNat = m % s.cfg.F)
    (idx : s.idx.toNat = m / s.cfg.F % 8) :
    (countSegment s).seg.toNat = (m + 1) % s.cfg.F ∧ (countSegment s).idx.toNat = (m + 1) / s.cfg.F % 8 := by
  obtain ⟨seg', idx', -⟩ := countSegment_values (s := s) (seg ▸ Nat.mod_lt _ hF)
  rw [seg', idx', seg]
  obtain ⟨last, quotient, remainder⟩ | ⟨more, quotient, remainder⟩ := succ_div_mod hF m
  · rw [if_pos last, if_pos last, quotient, remainder, succOf, BitVec.toNat_ofNat, idx]
    exact ⟨rfl, by omega⟩
  · rw [if_neg more, if_neg more, quotient, remainder]
    exact ⟨rfl, idx⟩

/-! ### One `TICK` -/

/-- A block that awaits `TICK` performs its handler. -/
theorem exec_tick {s : State} (h : Awaits .tick s) : exec .tick s = .next (onTick s) := by
  have sw : s.cfg.variant = .sw := of_decide_eq_true h.offer
  rw [exec_ready h.offer h.ready, effectOf, arrive_tick h.ready.running sw h.idle]

/-- After a `TICK` the block awaits the next one. -/
theorem awaits_onTick {s : State} (h : Awaits .tick s) : Awaits .tick (onTick s) :=
  h.congr (by simp [onTick_eq]) (by simp [onTick_eq]) (by simp [onTick_eq])

/-- The sub-tick after a `TICK`, modulo 256 (R87). -/
theorem onTick_tickcnt (s : State) : (onTick s).tickcnt.toNat = (s.tickcnt.toNat + 1) % 256 := by
  simp [onTick_eq]

/-- The cycle counter's step writes the fade state only. -/
theorem countSegment_frame (s : State) : ∃ i a n, countSegment s = { s with idx := i, acc := a, seg := n } := by
  by_cases last : s.seg + 1 = s.cfg.fade
  · exact ⟨_, _, _, countSegment_end s last⟩
  · exact ⟨_, _, _, countSegment_inside s last⟩

/-- The duty step writes `ACC` only. -/
theorem dutyPhase_frame (s : State) : ∃ a, dutyPhase s = { s with acc := a } := by
  unfold dutyPhase
  split
  · exact ⟨_, rfl⟩
  · exact ⟨s.acc, rfl⟩

/-- The registers that a `TICK` writes (R81). -/
theorem onTick_frame (s : State) :
    let t := onTick s
    t = { s with tickcnt := t.tickcnt, seg := t.seg, idx := t.idx, acc := t.acc, led := t.led, out := t.out } := by
  obtain ⟨cs, handled⟩ : ∃ cs, onTick s = issue cs (tickCount (countSegment (dutyPhase s))) := ⟨_, onTick_eq s⟩
  obtain ⟨i, a, n, counted⟩ := countSegment_frame (dutyPhase s)
  obtain ⟨b, stepped⟩ := dutyPhase_frame s
  rw [counted, stepped] at handled
  rw [handled]
  rfl

/-- Settles O32: the duty step, then the cycle counter's step at the end of the segment or inside it. -/
theorem tickMovesCounters : Obligations.TickMovesCounters := by
  intro s ready sw idle below
  have completes := exec_tick ⟨ready, isSw_eq sw, idle⟩
  have below' : (dutyPhase s).seg.toNat < (dutyPhase s).cfg.F := by simpa using below
  refine ⟨onTick s, completes, onTick_tickcnt s, fun last => ?_, fun more => ?_, onTick_frame s⟩
  · have counted := countSegment_of_end below' (by simpa using last)
    simp [onTick_eq, counted]
  · have counted := countSegment_of_inside below' (by simpa using more)
    refine ⟨?_, ?_, ?_⟩
    · simpa [onTick_eq, counted] using seg_succ_toNat below
    · simp [onTick_eq, counted]
    · simpa [onTick_eq, counted] using dutyPhase_acc sw

/-- Settles O33: `onTick_eq` names the commands, by the duties of the numerator after the duty step. -/
theorem tickIssuesCommands : Obligations.TickIssuesCommands := by
  intro s ready sw idle acc1 d p cs
  have duties : dutyOf (dutyPhase s) = d ∧ prevDutyOf (dutyPhase s) = p := by
    rw [dutyOf_eq, prevDutyOf_eq, dutyPhase_cfg, dutyPhase_acc sw]
    exact ⟨rfl, rfl⟩
  have handled : onTick s = issue cs (tickCount (countSegment (dutyPhase s))) := by
    rw [onTick_eq, duties.1, duties.2]
    rfl
  refine ⟨onTick s, exec_tick ⟨ready, isSw_eq sw, idle⟩, ?_, ?_⟩
  · simp [handled]
  · simp [handled]

/-! ### Runs of `TICK` -/

/-- The state after `m` ticks from reset, as far as the count of ticks decides it. -/
structure TicksCounted (c : Config) (m : Nat) (t : State) : Prop where
  awaits : Awaits .tick t
  cfg : t.cfg = c
  seg : t.seg.toNat = m % c.F
  idx : t.idx.toNat = m / c.F % 8
  tickcnt : t.tickcnt.toNat = m % 256
  acc : m % c.F = 0 → t.acc = 0

/-- One more tick. -/
theorem TicksCounted.next {c : Config} {m : Nat} {t : State} (h : TicksCounted c m t) :
    TicksCounted c (m + 1) (onTick t) := by
  obtain ⟨awaits, rfl, seg, idx, tickcnt, -⟩ := h
  have hF := awaits.one_le_F
  have counts := countSegment_counts (s := dutyPhase t) (m := m) (by simpa using hF) (by simpa using seg)
    (by simpa using idx)
  rw [dutyPhase_cfg] at counts
  refine ⟨awaits_onTick awaits, by simp [onTick_eq], by simpa [onTick_eq] using counts.1,
    by simpa [onTick_eq] using counts.2, ?_, fun full => ?_⟩
  · rw [onTick_tickcnt, tickcnt, Nat.mod_add_mod]
  · have last : t.seg.toNat + 1 = t.cfg.F := by
      obtain ⟨last, -⟩ | ⟨-, -, remainder⟩ := succ_div_mod hF m
      · rw [seg, last]
      · omega
    have counted := countSegment_of_end (s := dutyPhase t) (by simp; omega) (by simpa using last)
    simp [onTick_eq, counted]

/-- Settles O34: each tick counts, from reset on. -/
theorem ticksCountSegments : Obligations.TicksCountSegments := by
  intro c m legal sw
  have start : TicksCounted c 0 (State.resetOf c true) :=
    ⟨awaits_reset legal (isSw_eq sw), rfl, (Nat.zero_mod _).symm, by simp [State.resetOf], rfl, fun _ => rfl⟩
  obtain ⟨t, run, h⟩ := execAll_replicate m start
    (fun k t _ h => ⟨onTick t, exec_tick h.awaits, h.next⟩) m (Nat.le_refl m)
  exact ⟨t, run, h.seg, h.idx, h.tickcnt, h.acc⟩

/-- The previous light is another light (R69). -/
theorem prevOf_ne (i : BitVec 3) : prevOf i ≠ i := by
  rw [prevOf_eq_add_seven]
  bv_omega

/-- A light that goes OFF is not kept ON by its ON command, and one that stays has a duty to go ON for. -/
theorem lightAfterTick (t d : Byte) (b : Bool) :
    (if t = d then false else if t = 0 ∧ d ≠ 0 then true else b) = if t = d then false else if t = 0 then true else b := by
  by_cases off : t = d
  · rw [if_pos off, if_pos off]
  · have on : (t = 0 ∧ d ≠ 0) ↔ t = 0 := and_iff_left_of_imp fun start zero => off (start.trans zero.symm)
    simp only [on]

/-- The active light after the commands of a `TICK`. -/
theorem tickCommands_active (t d p : Byte) (i : BitVec 3) (s : State) :
    (issue (tickCommands t d p i) s).led.getLsbD i.toNat =
      if t = d then false else if t = 0 then true else s.led.getLsbD i.toNat := by
  have other : i ≠ prevOf i := (prevOf_ne i).symm
  simp only [tickCommands, ← issue_issue, issueIf_bit, other, and_false, and_true, if_false]
  exact lightAfterTick t d _

/-- The previous light after the commands of a `TICK`. -/
theorem tickCommands_prev (t d p : Byte) (i : BitVec 3) (s : State) :
    (issue (tickCommands t d p i) s).led.getLsbD (prevOf i).toNat =
      if t = p then false else if t = 0 then true else s.led.getLsbD (prevOf i).toNat := by
  have other : prevOf i ≠ i := prevOf_ne i
  simp only [tickCommands, ← issue_issue, issueIf_bit, other, and_false, and_true, if_false]
  exact lightAfterTick t p _

/-- A light of duty `d` that goes ON at sub-tick 0 unless `d` is 0, and OFF at sub-tick `d`, is ON after the tick at
sub-tick `k` exactly if `k + 1` is at most `d` (R88). -/
theorem onUntil_succ {t d : Byte} {k : Nat} {b : Bool} (hk : t.toNat = k)
    (before : k ≠ 0 → b = decide (k ≤ d.toNat)) :
    (if t = d then false else if t = 0 then true else b) = decide (k + 1 ≤ d.toNat) := by
  subst hk
  by_cases off : t = d
  · simp [off]
  · have apart : t.toNat ≠ d.toNat := mt BitVec.eq_of_toNat_eq off
    rw [if_neg off]
    by_cases start : t = 0
    · have zero : t.toNat = 0 := by
        rw [start]
        rfl
      rw [if_pos start]
      exact (decide_eq_true (by omega)).symm
    · have positive : t.toNat ≠ 0 := fun zero => start (BitVec.eq_of_toNat_eq zero)
      rw [if_neg start, before positive, decide_eq_decide]
      omega

/-- The numerator of a period after its duty step (R66). -/
def periodAcc (s : State) : Nat := min (s.acc.toNat + 65280) (255 * s.cfg.F)

/-- The state after `k` ticks of a period that begins in `s` and does not rotate. -/
structure TickPeriod (s : State) (k : Nat) (t : State) : Prop where
  awaits : Awaits .tick t
  cfg : t.cfg = s.cfg
  idx : t.idx = s.idx
  seg : t.seg.toNat = s.seg.toNat + k
  tickcnt : t.tickcnt.toNat = k % 256
  acc : t.acc.toNat = if k = 0 then s.acc.toNat else periodAcc s
  active : k ≠ 0 → t.led.getLsbD s.idx.toNat = decide (k ≤ (dutyAt s.cfg (periodAcc s)).toNat)
  prev : k ≠ 0 → t.led.getLsbD (prevOf s.idx).toNat =
    decide (k ≤ (dutyAt s.cfg (255 * s.cfg.F - periodAcc s)).toNat)

/-- One more tick of the period. -/
theorem TickPeriod.next {s t : State} {k : Nat} (h : TickPeriod s k t) (room : s.seg.toNat + 256 < s.cfg.F)
    (hk : k < 256) : TickPeriod s (k + 1) (onTick t) := by
  obtain ⟨awaits, cfg, idx, seg, tickcnt, acc, active, prev⟩ := h
  have sw : t.cfg.variant = .sw := of_decide_eq_true awaits.offer
  rw [Nat.mod_eq_of_lt hk] at tickcnt
  have atStart : t.tickcnt = 0 ↔ k = 0 := by
    rw [← tickcnt]
    bv_omega
  have stepped : (dutyPhase t).acc.toNat = periodAcc s := by
    rw [dutyPhase_acc sw, acc, cfg]
    by_cases zero : k = 0 <;> simp only [atStart, zero, if_true, if_false, periodAcc]
  have duties : dutyOf (dutyPhase t) = dutyAt s.cfg (periodAcc s) ∧
      prevDutyOf (dutyPhase t) = dutyAt s.cfg (255 * s.cfg.F - periodAcc s) := by
    rw [dutyOf_eq, prevDutyOf_eq, dutyPhase_cfg, stepped, cfg]
    exact ⟨rfl, rfl⟩
  have below : t.seg.toNat < t.cfg.F := by
    rw [seg, cfg]
    omega
  have more : t.seg.toNat + 1 ≠ t.cfg.F := by
    rw [seg, cfg]
    omega
  have counted := countSegment_of_inside (s := dutyPhase t) (by simpa using below) (by simpa using more)
  have handled := onTick_eq t
  rw [duties.1, duties.2, counted, idx] at handled
  refine ⟨awaits_onTick awaits, by simp [handled, cfg], by simp [handled, idx], ?_, ?_, ?_, fun _ => ?_, fun _ => ?_⟩
  · simpa [handled, seg, Nat.add_assoc] using seg_succ_toNat below
  · rw [onTick_tickcnt, tickcnt]
  · simpa [handled] using stepped
  · rw [handled, tickCommands_active]
    exact onUntil_succ tickcnt (by simpa using active)
  · rw [handled, tickCommands_prev]
    exact onUntil_succ tickcnt (by simpa using prev)

/-- Settles O35: tick by tick through the period, each light is ON until its duty. -/
theorem tickOnTimeIsDuty : Obligations.TickOnTimeIsDuty := by
  intro s k inv running sw start room hk hk'
  have begins : TickPeriod s 0 s :=
    ⟨⟨⟨inv.legal, running⟩, isSw_eq sw, inv.pendZero⟩, rfl, rfl, rfl, by simp [start], rfl, by simp, by simp⟩
  obtain ⟨t, run, h⟩ := execAll_replicate 256 begins
    (fun k t hk h => ⟨onTick t, exec_tick h.awaits, h.next room hk⟩) k hk'
  have positive : k ≠ 0 := by omega
  exact ⟨t, run, h.idx, h.acc.trans (if_neg positive), h.active positive, h.prev positive⟩

end Sys2Proof.Machine

/-! Proofs of the statements of 43_compare_scheduler_hw.md about the period event, and about one clock tick. -/

namespace Sys2Proof.Machine

open Sys2Proof.Claims

/-! ### `UPD` -/

/-- A block that awaits `UPD` is of an `HW` build in the open environment (R47). -/
theorem Awaits.opened {s : State} (h : Awaits .upd s) : s.cfg.variant = .hw ∧ s.cfg.env = .opened := by
  obtain ⟨hw, opened⟩ := Bool.and_eq_true_iff.mp h.offer
  exact ⟨of_decide_eq_true hw, of_decide_eq_true opened⟩

/-- A block that awaits `UPD` performs its handler. -/
theorem exec_upd {s : State} (h : Awaits .upd s) : exec .upd s = .next (onUpd s) :=
  receive_arrive_opened .upd (by decide) h.ready h.opened.1 h.opened.2 h.idle

/-- After an `UPD` the block awaits the next one. -/
theorem awaits_onUpd {i : Instr} {s : State} (h : Awaits i s) : Awaits i (onUpd s) :=
  h.congr (onUpd_cfg s) (onUpd_halted s) (onUpd_pend s)

/-- The numerator after `UPD`: the duty step comes last (R66, R101). -/
theorem onUpd_acc {s : State} (hw : s.cfg.variant = .hw) :
    (onUpd s).acc.toNat = min ((countSegment s).acc.toNat + 255) (255 * s.cfg.F) := by
  rw [onUpd_eq, stepDuty_acc_eq]
  simp [hw, updThresholds_eq]

/-- The thresholds that `UPD` computes (R98, R99). -/
theorem onUpd_pre (s : State) :
    (onUpd s).ccr1Pre.toNat = (dutyAt s.cfg (countSegment s).acc.toNat).toNat * s.cfg.P / 255 ∧
      (onUpd s).ccr2Pre.toNat =
        (dutyAt s.cfg (255 * s.cfg.F - (countSegment s).acc.toNat)).toNat * s.cfg.P / 255 := by
  simp [onUpd_eq, updThresholds_eq, threshold_toNat, dutyOf_eq, prevDutyOf_eq]

/-- The commands of `UPD`: the two compare writes and the two ON commands (R99, R100). -/
theorem onUpd_out (s : State) :
    (onUpd s).out = s.out ++ [.ccr .one (onUpd s).ccr1Pre, .ccr .two (onUpd s).ccr2Pre,
      .led (countSegment s).idx true, .led (prevOf (countSegment s).idx) true] := by
  simp [onUpd_eq, updThresholds_eq, pairOn]

/-- The lights after `UPD` (R100). -/
theorem onUpd_led (s : State) :
    (onUpd s).led =
      applyCommands s.led [.led (countSegment s).idx true, .led (prevOf (countSegment s).idx) true] := by
  simp [onUpd_eq, updThresholds_eq, pairOn]

/-- The registers that an `UPD` writes (R96). -/
theorem onUpd_frame (s : State) :
    let t := onUpd s
    t = { s with seg := t.seg, idx := t.idx, acc := t.acc, ccr1Pre := t.ccr1Pre, ccr2Pre := t.ccr2Pre,
                 led := t.led, out := t.out } := by
  obtain ⟨cs, handled⟩ : ∃ cs, onUpd s = stepDuty (issue cs (updThresholds (countSegment s))) := ⟨_, onUpd_eq s⟩
  obtain ⟨i, a, n, counted⟩ := countSegment_frame s
  rw [counted] at handled
  rw [handled]
  rfl

/-- Settles O36: the cycle counter's step decides the pair and the numerator, and the rest is computed from them. -/
theorem updProgramsPeriod : Obligations.UpdProgramsPeriod := by
  intro s ready hw opened idle below rot idx1 acc1
  obtain ⟨seg, idx, acc⟩ := countSegment_values below
  obtain ⟨pre1, pre2⟩ := onUpd_pre s
  refine ⟨onUpd s, exec_upd ⟨ready, isHwOpened_eq hw opened, idle⟩, ?_, ?_, ?_, ?_, ?_, ?_, ?_, onUpd_frame s⟩
  · rw [onUpd_seg, seg]
  · rw [onUpd_idx, idx]
  · rw [onUpd_acc hw, acc]
  · rw [pre1, acc]
  · rw [pre2, acc]
  · rw [onUpd_out, idx]
  · rw [onUpd_led, idx]

/-- The state after `m` period events from reset, as far as their count decides it. -/
structure UpdsCounted (c : Config) (m : Nat) (t : State) : Prop where
  awaits : Awaits .upd t
  cfg : t.cfg = c
  seg : t.seg.toNat = m % c.F
  idx : t.idx.toNat = m / c.F % 8
  acc : t.acc.toNat = 255 * (if m < c.F then m else m % c.F + 1)

/-- One more period event. -/
theorem UpdsCounted.next {c : Config} {m : Nat} {t : State} (h : UpdsCounted c m t) :
    UpdsCounted c (m + 1) (onUpd t) := by
  obtain ⟨awaits, rfl, seg, idx, acc⟩ := h
  have hF := awaits.one_le_F
  have remainder := Nat.mod_lt m hF
  have counts := countSegment_counts hF seg idx
  obtain ⟨-, -, counted⟩ := countSegment_values (s := t) (seg ▸ remainder)
  refine ⟨awaits_onUpd awaits, onUpd_cfg t, by rw [onUpd_seg, counts.1], by rw [onUpd_idx, counts.2], ?_⟩
  rw [onUpd_acc awaits.opened.1, counted, seg, acc]
  obtain ⟨last, -, next⟩ | ⟨more, -, next⟩ := succ_div_mod hF m
  · have reached : ¬ m + 1 < t.cfg.F := by
      have := Nat.mod_le m t.cfg.F
      omega
    rw [if_pos last, if_neg reached, next]
    omega
  · rw [if_neg more, next]
    by_cases first : m < t.cfg.F
    · rw [Nat.mod_eq_of_lt first] at more remainder ⊢
      have still : m + 1 < t.cfg.F := by omega
      rw [if_pos first, if_pos still]
      omega
    · have reached : ¬ m + 1 < t.cfg.F := by omega
      rw [if_neg first, if_neg reached]
      omega

/-- Settles O44: each period event counts, from reset on. -/
theorem updsCountSegments : Obligations.UpdsCountSegments := by
  intro c m legal hw opened
  have start : UpdsCounted c 0 (State.resetOf c true) :=
    ⟨awaits_reset legal (isHwOpened_eq hw opened), rfl, (Nat.zero_mod _).symm, by simp [State.resetOf],
      by rw [if_pos (show 0 < c.F from Config.one_le_F legal)]; rfl⟩
  obtain ⟨t, run, h⟩ := execAll_replicate m start
    (fun k t _ h => ⟨onUpd t, exec_upd h.awaits, h.next⟩) m (Nat.le_refl m)
  exact ⟨t, run, h.seg, h.idx, h.acc⟩

/-! ### One `CLK` -/

/-- A block that awaits `CLK` is of an `HW` build in the closed environment (R47). -/
theorem Awaits.closed {s : State} (h : Awaits .clk s) : s.cfg.variant = .hw ∧ s.cfg.env = .closed := by
  obtain ⟨hw, closed⟩ := Bool.and_eq_true_iff.mp h.offer
  exact ⟨of_decide_eq_true hw, of_decide_eq_true closed⟩

/-- A block that awaits `CLK` is idle. -/
theorem Awaits.idleHw {s : State} (h : Awaits .clk s) : IdleHw s := ⟨h.ready.running, h.closed.1, h.idle⟩

/-- `P` of a block that awaits `CLK`. -/
theorem Awaits.one_le_P {s : State} (h : Awaits .clk s) : 1 ≤ s.cfg.P := Config.one_le_P h.ready.legal h.closed.1

/-- A block that awaits `CLK` performs the whole tick. -/
theorem exec_clk {s : State} (h : Awaits .clk s) : exec .clk s = .next (clockTick s) := exec_ready h.offer h.ready

/-- A `CLK` writes no parameter. -/
@[simp] theorem clockTick_cfg (s : State) : (clockTick s).cfg = s.cfg := (sameControl_kept.clock s).1

/-- A `CLK` does not write `HALTED`. -/
@[simp] theorem clockTick_halted (s : State) : (clockTick s).halted = s.halted := (sameControl_kept.clock s).2

/-- After a `CLK` the block awaits the next one. -/
theorem awaits_clockTick {s : State} (h : Awaits .clk s) : Awaits .clk (clockTick s) :=
  h.congr (clockTick_cfg s) (clockTick_halted s) ((clockTick_frame h.idleHw).1.trans h.idle.symm)

/-- The period end, for a block that awaits `CLK` (R105). -/
theorem Awaits.atPeriodEnd_iff {s : State} (h : Awaits .clk s) : atPeriodEnd s = true ↔ s.cnt.toNat + 1 = s.cfg.P := by
  rw [atPeriodEnd_eq h.one_le_P, decide_eq_true_iff]

/-- A `CLK` at a boundary (R105, R106). -/
theorem Awaits.clockTick_boundary {s : State} (h : Awaits .clk s) (last : s.cnt.toNat + 1 = s.cfg.P) :
    clockTick s =
      issue (compareCommands (decide (0 = s.ccr1Pre)) (decide (0 = s.ccr2Pre)) (onUpd s).idx)
        (withTimer s.cfg.env 0 s.ccr1Pre s.ccr2Pre (onUpd s)) :=
  clockTick_end h.idleHw (h.atPeriodEnd_iff.mpr last)

/-- A `CLK` inside a period (R105). -/
theorem Awaits.clockTick_between {s : State} (h : Awaits .clk s) (more : s.cnt.toNat + 1 ≠ s.cfg.P) :
    clockTick s =
      issue (compareCommands (decide (s.cnt + 1 = s.ccr1Act)) (decide (s.cnt + 1 = s.ccr2Act)) s.idx)
        { s with cnt := s.cnt + 1 } :=
  clockTick_inside h.idleHw (Bool.eq_false_iff.mpr (mt h.atPeriodEnd_iff.mp more))

/-- Settles O40: a boundary and a tick inside a period, each by its equation. -/
theorem clockAdvancesTimer : Obligations.ClockAdvancesTimer := by
  intro s ready hw closed idle below
  have awaits : Awaits .clk s := ⟨ready, isHwClosed_eq hw closed, idle⟩
  obtain ⟨pend, input, tickcnt, ret⟩ := clockTick_frame awaits.idleHw
  refine ⟨clockTick s, exec_clk awaits, fun last => ?_, fun more => ?_, tickcnt, clockTick_halted s, pend, ret, input,
    clockTick_cfg s⟩
  · simp [awaits.clockTick_boundary last]
  · simpa [awaits.clockTick_between more] using cnt_succ_toNat below

/-! ### Runs of `CLK` -/

/-- The state after `m` clock ticks from reset, as far as their count decides it. -/
structure ClocksCounted (c : Config) (m : Nat) (t : State) : Prop where
  awaits : Awaits .clk t
  cfg : t.cfg = c
  cnt : t.cnt.toNat = m % c.P
  seg : t.seg.toNat = m / c.P % c.F
  idx : t.idx.toNat = m / c.P / c.F % 8

/-- One more clock tick. -/
theorem ClocksCounted.next {c : Config} {m : Nat} {t : State} (h : ClocksCounted c m t) :
    ClocksCounted c (m + 1) (clockTick t) := by
  obtain ⟨awaits, rfl, cnt, seg, idx⟩ := h
  have hP := awaits.one_le_P
  have below : t.cnt.toNat < t.cfg.P := cnt ▸ Nat.mod_lt m hP
  obtain ⟨last, quotient, remainder⟩ | ⟨more, quotient, remainder⟩ := succ_div_mod hP m
  · have counts := countSegment_counts awaits.one_le_F seg idx
    have tick := awaits.clockTick_boundary (cnt ▸ last)
    exact ⟨awaits_clockTick awaits, clockTick_cfg t, by simp [tick, remainder], by simp [tick, quotient, counts.1],
      by simp [tick, quotient, counts.2]⟩
  · have more' : t.cnt.toNat + 1 ≠ t.cfg.P := cnt ▸ more
    have counted := cnt_succ_toNat below
    have tick := awaits.clockTick_between more'
    exact ⟨awaits_clockTick awaits, clockTick_cfg t, by rw [tick, remainder, ← cnt]; exact counted,
      by simp [tick, quotient, seg], by simp [tick, quotient, idx]⟩

/-- Settles O45: each clock tick counts, from reset on. -/
theorem clocksCountPeriods : Obligations.ClocksCountPeriods := by
  intro c m legal hw closed
  have start : ClocksCounted c 0 (State.resetOf c true) :=
    ⟨awaits_reset legal (isHwClosed_eq hw closed), rfl, (Nat.zero_mod _).symm, by simp [State.resetOf],
      by simp [State.resetOf]⟩
  obtain ⟨t, run, h⟩ := execAll_replicate m start
    (fun k t _ h => ⟨clockTick t, exec_clk h.awaits, h.next⟩) m (Nat.le_refl m)
  exact ⟨t, run, h.cnt, h.seg, h.idx⟩

/-- The lights of the pair after the commands of the comparators: OFF where the comparator matches (R102, R103). -/
theorem compareCommands_bits (m1 m2 : Bool) (i : BitVec 3) (s : State) :
    (issue (compareCommands m1 m2 i) s).led.getLsbD i.toNat = (if m1 = true then false else s.led.getLsbD i.toNat) ∧
      (issue (compareCommands m1 m2 i) s).led.getLsbD (prevOf i).toNat =
        if m2 = true then false else s.led.getLsbD (prevOf i).toNat := by
  have other : i ≠ prevOf i := (prevOf_ne i).symm
  simp only [compareCommands, ← issue_issue, issueIf_bit, other, other.symm, and_false, and_true, if_false,
    and_self]

/-- A light that is ON below its threshold `a`, and goes OFF where the counter equals it (R109). -/
theorem onBelow_succ {n a : BitVec 16} {j : Nat} {b : Bool} (hn : n.toNat = j + 1) (before : b = decide (j < a.toNat)) :
    (if decide (n = a) = true then false else b) = decide (j + 1 < a.toNat) := by
  rw [before]
  by_cases off : n = a
  · simp [← off, hn]
  · have apart : n.toNat ≠ a.toNat := mt BitVec.eq_of_toNat_eq off
    simp only [off, decide_false, Bool.false_eq_true, if_false, decide_eq_decide]
    omega

/-- A light that has just gone ON, and goes OFF if its threshold is 0. -/
theorem onBelow_zero (a : BitVec 16) : (if decide (0 = a) = true then false else true) = decide (0 < a.toNat) := by
  by_cases off : 0 = a
  · simp [← off]
  · have apart : (0 : BitVec 16).toNat ≠ a.toNat := mt BitVec.eq_of_toNat_eq off
    simp only [off, decide_false, Bool.false_eq_true, if_false]
    exact (decide_eq_true (Nat.pos_of_ne_zero apart.symm)).symm

/-- Both lights of the pair after their ON commands (R100). -/
theorem pairOn_bits (i : BitVec 3) (s : State) :
    (issue (pairOn i) s).led.getLsbD i.toNat = true ∧ (issue (pairOn i) s).led.getLsbD (prevOf i).toNat = true := by
  have commands : pairOn i = issueIf True (.led i true) ++ issueIf True (.led (prevOf i) true) := rfl
  simp only [commands, ← issue_issue, issueIf_bit, true_and, if_true, ite_self, and_self]

/-- Both lights of the pair are ON after `UPD` (R100). -/
theorem onUpd_bits (s : State) :
    (onUpd s).led.getLsbD (countSegment s).idx.toNat = true ∧
      (onUpd s).led.getLsbD (prevOf (countSegment s).idx).toNat = true := by
  rw [onUpd_eq, stepDuty_led]
  exact pairOn_bits _ _

/-- The state `j` ticks after the boundary that led to `b`: the counter has moved, and the comparators have turned the
lights of the pair OFF. -/
structure ClockPeriod (b : State) (j : Nat) (t : State) : Prop where
  awaits : Awaits .clk t
  cfg : t.cfg = b.cfg
  idx : t.idx = b.idx
  cnt : t.cnt.toNat = j
  pre1 : t.ccr1Pre = b.ccr1Pre
  pre2 : t.ccr2Pre = b.ccr2Pre
  act1 : t.ccr1Act = b.ccr1Act
  act2 : t.ccr2Act = b.ccr2Act
  active : t.led.getLsbD b.idx.toNat = decide (j < b.ccr1Act.toNat)
  prev : t.led.getLsbD (prevOf b.idx).toNat = decide (j < b.ccr2Act.toNat)

/-- The state that the boundary leads to. -/
theorem ClockPeriod.begins {s : State} (awaits : Awaits .clk s) (last : s.cnt.toNat + 1 = s.cfg.P) :
    ClockPeriod (clockTick s) 0 (clockTick s) := by
  have tick := awaits.clockTick_boundary last
  obtain ⟨active, prev⟩ := compareCommands_bits (decide (0 = s.ccr1Pre)) (decide (0 = s.ccr2Pre)) (onUpd s).idx
    (withTimer s.cfg.env 0 s.ccr1Pre s.ccr2Pre (onUpd s))
  obtain ⟨on1, on2⟩ := onUpd_bits s
  rw [← tick, withTimer_led, onUpd_idx] at active prev
  rw [on1, onBelow_zero] at active
  rw [on2, onBelow_zero] at prev
  exact ⟨awaits_clockTick awaits, rfl, rfl, by simp [tick], rfl, rfl, rfl, rfl, by simpa [tick] using active,
    by simpa [tick] using prev⟩

/-- One more tick of the period. -/
theorem ClockPeriod.next {b t : State} {j : Nat} (h : ClockPeriod b j t) (more : j + 1 < b.cfg.P) :
    ClockPeriod b (j + 1) (clockTick t) := by
  obtain ⟨awaits, cfg, idx, cnt, pre1, pre2, act1, act2, active, prev⟩ := h
  have tick := awaits.clockTick_between (by rw [cnt, cfg]; omega)
  have counted := cnt_succ_toNat (s := t) (by rw [cnt, cfg]; omega)
  rw [cnt] at counted
  obtain ⟨active', prev'⟩ := compareCommands_bits (decide (t.cnt + 1 = t.ccr1Act)) (decide (t.cnt + 1 = t.ccr2Act)) t.idx
    { t with cnt := t.cnt + 1 }
  rw [← tick, idx, act1, onBelow_succ counted active] at active'
  rw [← tick, idx, act2, onBelow_succ counted prev] at prev'
  exact ⟨awaits_clockTick awaits, (clockTick_cfg t).trans cfg, by simp [tick, idx], by simpa [tick] using counted,
    by simp [tick, pre1], by simp [tick, pre2], by simp [tick, act1], by simp [tick, act2], active', prev'⟩

/-- The ticks of the period that a boundary opens. -/
theorem clockPeriod_run {s : State} (awaits : Awaits .clk s) (last : s.cnt.toNat + 1 = s.cfg.P) {j : Nat}
    (hj : j < s.cfg.P) :
    ∃ t, execAll (List.replicate (j + 1) .clk) s = .next t ∧ ClockPeriod (clockTick s) j t := by
  obtain ⟨t, run, h⟩ := execAll_replicate (s.cfg.P - 1) (ClockPeriod.begins awaits last)
    (fun k t hk h => ⟨clockTick t, exec_clk h.awaits, h.next (by rw [clockTick_cfg]; omega)⟩) j (by omega)
  exact ⟨t, (execAll_cons (exec_clk awaits) _).trans run, h⟩

/-- Settles O46: the boundary turns the pair ON and moves the thresholds, which then turn it OFF. -/
theorem clockOnTimeIsThreshold : Obligations.ClockOnTimeIsThreshold := by
  intro s j inv running hw closed last noTurn hj
  have awaits : Awaits .clk s := ⟨⟨inv.legal, running⟩, isHwClosed_eq hw closed, inv.pendZero⟩
  obtain ⟨t, run, h⟩ := clockPeriod_run awaits last hj
  have boundary := awaits.clockTick_boundary last
  have idx : (clockTick s).idx = s.idx := by
    simp [boundary, countSegment_of_inside inv.segLt noTurn]
  have act1 : (clockTick s).ccr1Act = s.ccr1Pre := by simp [boundary]
  have act2 : (clockTick s).ccr2Act = s.ccr2Pre := by simp [boundary]
  have active := h.active
  have prev := h.prev
  rw [idx, act1] at active
  rw [idx, act2] at prev
  exact ⟨t, run, h.cnt, h.idx.trans idx, active, prev⟩

/-- Settles O41: the period keeps both pairs of compare registers, and the next boundary moves them on. -/
theorem thresholdsActOnePeriodLater : Obligations.ThresholdsActOnePeriodLater := by
  intro s ready hw closed idle last below acc1 c1 c2
  have awaits : Awaits .clk s := ⟨ready, isHwClosed_eq hw closed, idle⟩
  have boundary := awaits.clockTick_boundary last
  obtain ⟨-, -, acc⟩ := countSegment_values below
  have pres : (clockTick s).ccr1Pre.toNat = c1 ∧ (clockTick s).ccr2Pre.toNat = c2 := by
    obtain ⟨pre1, pre2⟩ := onUpd_pre s
    rw [acc] at pre1 pre2
    simpa only [boundary, issue_ccr1Pre, issue_ccr2Pre, withTimer_ccr1Pre, withTimer_ccr2Pre] using ⟨pre1, pre2⟩
  refine ⟨fun j hj => ?_, ?_⟩
  · obtain ⟨t, run, h⟩ := clockPeriod_run awaits last hj
    exact ⟨t, run, h.act1.trans (by simp [boundary]), h.act2.trans (by simp [boundary]), by rw [h.pre1, pres.1],
      by rw [h.pre2, pres.2]⟩
  · have hP := awaits.one_le_P
    obtain ⟨t, run, h⟩ := clockPeriod_run awaits last (j := s.cfg.P - 1) (by omega)
    rw [Nat.sub_add_cancel hP] at run
    have atEnd : t.cnt.toNat + 1 = t.cfg.P := by
      rw [h.cnt, h.cfg, clockTick_cfg, Nat.sub_add_cancel hP]
    have tick := h.awaits.clockTick_boundary atEnd
    refine ⟨clockTick t, ?_, ?_, ?_⟩
    · rw [List.replicate_succ', execAll_append run, execAll_cons (exec_clk h.awaits)]
      rfl
    · simp only [tick, issue_ccr1Act, withTimer_ccr1Act, h.pre1, pres.1]
    · simp only [tick, issue_ccr2Act, withTimer_ccr2Act, h.pre2, pres.2]

end Sys2Proof.Machine

/-! Proofs that the closed environment of 43_compare_scheduler_hw.md is a refinement of the open one. -/

namespace Sys2Proof.Machine

open Sys2Proof.Claims

/-- The operation by which the open environment delivers an event (R47). -/
def sourceInstr : Source → Instr
  | .tick => .tick
  | .upd => .upd
  | .cc1 => .cc1
  | .cc2 => .cc2

/-- The open environment's event runs its handler. -/
theorem exec_sourceInstr {s : State} (h : Awaits .upd s) (e : Source) (he : e ≠ .tick) :
    exec (sourceInstr e) s = .next (handlerOf e s) := by
  have delivered := receive_arrive_opened e he h.ready h.opened.1 h.opened.2 h.idle
  cases e with
  | tick => exact absurd rfl he
  | upd => exact delivered
  | cc1 => exact delivered
  | cc2 => exact delivered

/-- After a handler that runs when its event is raised, the block awaits the next event. -/
theorem awaits_handleWhen {i : Instr} {s : State} (h : Awaits i s) (b : Bool) (e : Source) :
    Awaits i (handleWhen b e s) := by
  cases b with
  | true =>
    obtain ⟨pend, cfg, halted⟩ := handlerOf_control e s
    exact h.congr cfg halted pend
  | false => exact h

/-- An event of the open environment when it is raised. -/
theorem execAll_when {s : State} (h : Awaits .upd s) (b : Bool) (e : Source) (he : e ≠ .tick) :
    execAll (if b then [sourceInstr e] else []) s = .next (handleWhen b e s) := by
  cases b with
  | true => exact execAll_cons (exec_sourceInstr h e he) []
  | false => rfl

/-- The events that a tick raises, in the dispatcher's order (R108, R124). -/
def raisedEvents (u m1 m2 : Bool) : List Instr :=
  (if u then [Instr.upd] else []) ++ ((if m1 then [Instr.cc1] else []) ++ (if m2 then [Instr.cc2] else []))

/-- They are events of the open environment. -/
theorem mem_raisedEvents {u m1 m2 : Bool} {i : Instr} (h : i ∈ raisedEvents u m1 m2) :
    i = .upd ∨ i = .cc1 ∨ i = .cc2 := by
  simp only [raisedEvents, List.mem_append, List.mem_ite_nil_right, List.mem_singleton] at h
  exact h.imp And.right (Or.imp And.right And.right)

/-- Delivered in the open environment, they run their handlers in this order. -/
theorem execAll_raisedEvents {s : State} (h : Awaits .upd s) (u m1 m2 : Bool) :
    execAll (raisedEvents u m1 m2) s =
      .next (handleWhen m2 .cc2 (handleWhen m1 .cc1 (handleWhen u .upd s))) := by
  have h1 := awaits_handleWhen h u .upd
  have h2 := awaits_handleWhen h1 m1 .cc1
  exact (execAll_append (execAll_when h u .upd (by decide)) _).trans
    ((execAll_append (execAll_when h1 m1 .cc1 (by decide)) _).trans (execAll_when h2 m2 .cc2 (by decide)))

/-- The events that the next `CLK` raises (R105, R107). -/
def clockEvents (s : State) : List Instr :=
  raisedEvents (atPeriodEnd s) (match1 (timerAdvance s)) (match2 (timerAdvance s))

/-- The timer unit's step sets the timer unit's registers. -/
theorem timerAdvance_eq_withTimer (s : State) :
    timerAdvance s =
      withTimer s.cfg.env (timerAdvance s).cnt (timerAdvance s).ccr1Act (timerAdvance s).ccr2Act s := by
  cases h : atPeriodEnd s with
  | true => rw [timerAdvance_end h]; rfl
  | false => rw [timerAdvance_inside h]; rfl

/-- In the open environment, with any timer unit registers, the events of a tick lead to what the tick leads to, but for
the timer unit (R113). -/
theorem execAll_clockEvents {s : State} (h : Awaits .clk s) (c a b : BitVec 16) :
    execAll (clockEvents s) (withTimer .opened c a b s) = .next (withTimer .opened c a b (clockTick s)) := by
  have awaits : Awaits .upd (withTimer .opened c a b s) :=
    ⟨⟨h.ready.legal, h.ready.running⟩, isHwOpened_eq h.closed.1 rfl, h.idle⟩
  rw [clockEvents, execAll_raisedEvents awaits, clockTick_eq h.idleHw]
  generalize match1 (timerAdvance s) = m1
  generalize match2 (timerAdvance s) = m2
  rw [timerAdvance_eq_withTimer]
  simp only [handleWhen_withTimer _ .upd (by decide), handleWhen_withTimer _ .cc1 (by decide),
    handleWhen_withTimer _ .cc2 (by decide)]
  rfl

/-- The timer unit after a `CLK`: the handlers leave it as T1 does. -/
theorem clockTick_timer {s : State} (h : Awaits .clk s) :
    (clockTick s).cnt = (timerAdvance s).cnt ∧ (clockTick s).ccr1Act = (timerAdvance s).ccr1Act ∧
      (clockTick s).ccr2Act = (timerAdvance s).ccr2Act := by
  cases edge : atPeriodEnd s with
  | true => simp [clockTick_end h.idleHw edge, timerAdvance_end edge]
  | false => simp [clockTick_inside h.idleHw edge, timerAdvance_inside edge]

/-- Settles O42: the open run of the raised events, with the timer unit's registers put back in. -/
theorem clockRefinesOpenEvents : Obligations.ClockRefinesOpenEvents := by
  intro s ready hw closed idle below u cnt1 a1 a2 events
  have awaits : Awaits .clk s := ⟨ready, isHwClosed_eq hw closed, idle⟩
  have edge := awaits.atPeriodEnd_iff
  have advanced : (timerAdvance s).cnt = cnt1 ∧ (timerAdvance s).ccr1Act = a1 ∧ (timerAdvance s).ccr2Act = a2 := by
    by_cases last : u
    · rw [timerAdvance_end (edge.mpr last)]
      exact ⟨(if_pos last).symm, (if_pos last).symm, (if_pos last).symm⟩
    · rw [timerAdvance_inside (Bool.eq_false_iff.mpr (mt edge.mp last))]
      exact ⟨(if_neg last).symm, (if_neg last).symm, (if_neg last).symm⟩
  obtain ⟨timer, timer1, timer2⟩ := advanced
  have same : clockEvents s = events := by
    simp only [clockEvents, raisedEvents, match1, match2, timer, timer1, timer2, decide_eq_true_eq, edge]
    rfl
  obtain ⟨cnt, act1, act2⟩ := clockTick_timer awaits
  refine ⟨withTimer .opened s.cnt s.ccr1Act s.ccr2Act (clockTick s), ?_, ?_⟩
  · rw [← same]
    exact execAll_clockEvents awaits s.cnt s.ccr1Act s.ccr2Act
  · rw [exec_clk awaits, ← timer, ← timer1, ← timer2, ← cnt, ← act1, ← act2, ← clockTick_cfg s]
    rfl

/-- What a closed run of `CLK`s from `s` has led to, as an open run leads to it (R113). -/
structure OpenRun (s t : State) : Prop where
  awaits : Awaits .clk t
  mirrored : ∃ events : List Instr, (∀ i ∈ events, i = .upd ∨ i = .cc1 ∨ i = .cc2) ∧
    execAll events (withTimer .opened s.cnt s.ccr1Act s.ccr2Act s) =
      .next (withTimer .opened s.cnt s.ccr1Act s.ccr2Act t)

/-- One more `CLK`: its events follow. -/
theorem OpenRun.next {s t : State} (h : OpenRun s t) : OpenRun s (clockTick t) := by
  obtain ⟨awaits, events, known, run⟩ := h
  refine ⟨awaits_clockTick awaits, events ++ clockEvents t, fun i hi => ?_, ?_⟩
  · obtain hi | hi := List.mem_append.mp hi
    · exact known i hi
    · exact mem_raisedEvents hi
  · rw [execAll_append run]
    exact execAll_clockEvents awaits _ _ _

/-- Settles O43: tick by tick, the open run of the raised events differs in the timer unit only. -/
theorem closedRunsAreOpenRuns : Obligations.ClosedRunsAreOpenRuns := by
  intro s n ready hw closed idle
  have begins : OpenRun s s := ⟨⟨ready, isHwClosed_eq hw closed, idle⟩, [], by simp, rfl⟩
  obtain ⟨t, run, -, events, known, delivered⟩ := execAll_replicate n begins
    (P := fun _ t => OpenRun s t) (fun k t _ h => ⟨clockTick t, exec_clk h.awaits, h.next⟩) n (Nat.le_refl n)
  exact ⟨events, t, _, known, run, delivered, rfl, rfl, rfl, rfl, rfl, rfl, rfl⟩

end Sys2Proof.Machine
